-- ==== Sys2Proof/Word.lean ====
section
/-! DEFINITION. The words of the block: every interface register and every device register is one byte (00_scope.md R6),
and the year operand is the one 16-bit value (30_encoding.md R102). -/

namespace Sys2Proof

/-- One 8-bit register or one byte of a frame (R6 REG_WIDTH, IF_WIDTH). -/
abbrev Byte := BitVec 8

/-- The year operand or result, `yhi * 256 + ylo` (R102). -/
abbrev Year := BitVec 16

/-- `sext_8(b)`: the integer whose two's-complement byte is `b` (R8). -/
abbrev sext8 (b : Byte) : Int := b.toInt

end Sys2Proof
end

