-- ==== Sys2Proof/Syntax.lean ====
section
/-! DEFINITION. The 29 operations of 30_encoding.md R105, one constructor per row of the opcode table, with the operand
layouts of R102 in the order of the frame. A year is one operand (R108), assembled from `ylo` and `yhi` by the decoder. -/

namespace Sys2Proof

/-- An operation of the block with its operands, each byte as it stands in the frame (R103). -/
inductive Instr
  | bcdenc (a : Byte)
  | bcddec (a : Byte)
  | hrenc (a : Byte)
  | hrdec (a : Byte)
  | dow (year : Year) (month day : Byte)
  | dtenc (year : Year) (month day hour minute second : Byte)
  | dtdec (r0 r1 r2 r3 r4 r5 r6 : Byte)
  | tmpdec (r0 r1 : Byte)
  | a1enc (second minute hour dayof flags : Byte)
  | a1dec (r0 r1 r2 r3 : Byte)
  | a2enc (minute hour dayof flags : Byte)
  | a2dec (r0 r1 r2 : Byte)
  | getdt
  | setdt (year : Year) (month day hour minute second : Byte)
  | gettmp
  | geta1
  | seta1 (second minute hour dayof flags : Byte)
  | geta2
  | seta2 (minute hour dayof flags : Byte)
  | getvalid
  | getrun
  | setrun (a : Byte)
  | set32k (a : Byte)
  | sqwmode (a : Byte)
  | sqwrate (a : Byte)
  | latchaf
  | forceconv (a : Byte)
  | getage
  | setage (a : Byte)
  deriving DecidableEq, Repr

end Sys2Proof
end

