-- ==== Sys2Proof/WellFormed.lean ====
section
/-! DEFINITION. When an operation's operands lie in the domains the spec types them with (30_encoding.md R104 and the list
of 60_exceptions.md R342). An operation that is not well formed still has an encoding and runs: it ends with ARG_RANGE. -/

namespace Sys2Proof

namespace WellFormed

/-- A calendar date in range: the date part of 42_datetime.md R181 (the day is not checked against the month). -/
def date (year : Year) (month day : Byte) : Bool :=
  decide (2000 ≤ year.toNat) && decide (year.toNat ≤ 2199) && decide (1 ≤ month.toNat) && decide (month.toNat ≤ 12)
    && decide (1 ≤ day.toNat) && decide (day.toNat ≤ 31)

/-- An hour 0..23 (R154, R181). -/
def hour (h : Byte) : Bool := decide (h.toNat ≤ 23)

/-- A minute or a second 0..59 (R181, R240). -/
def sixty (x : Byte) : Bool := decide (x.toNat ≤ 59)

/-- An alarm's day-of selector 1..31 (44_alarm.md R240, R245). -/
def dayof (d : Byte) : Bool := decide (1 ≤ d.toNat) && decide (d.toNat ≤ 31)

/-- A boolean operand 0 or 1 (R104). -/
def boolean (b : Byte) : Bool := decide (b.toNat ≤ 1)

end WellFormed

/-- Every operand lies in its domain; the operands of the other operations are raw bytes, any of which is in its domain. -/
def Instr.wellFormed : Instr → Bool
  | .bcdenc _ => true
  | .bcddec _ => true
  | .hrenc a => WellFormed.hour a
  | .hrdec _ => true
  | .dow y mo d => WellFormed.date y mo d
  | .dtenc y mo d h mi s =>
    WellFormed.date y mo d && WellFormed.hour h && WellFormed.sixty mi && WellFormed.sixty s
  | .dtdec _ _ _ _ _ _ _ => true
  | .tmpdec _ _ => true
  | .a1enc s mi h dy _ => WellFormed.sixty s && WellFormed.sixty mi && WellFormed.hour h && WellFormed.dayof dy
  | .a1dec _ _ _ _ => true
  | .a2enc mi h dy _ => WellFormed.sixty mi && WellFormed.hour h && WellFormed.dayof dy
  | .a2dec _ _ _ => true
  | .getdt => true
  | .setdt y mo d h mi s =>
    WellFormed.date y mo d && WellFormed.hour h && WellFormed.sixty mi && WellFormed.sixty s
  | .gettmp => true
  | .geta1 => true
  | .seta1 s mi h dy _ => WellFormed.sixty s && WellFormed.sixty mi && WellFormed.hour h && WellFormed.dayof dy
  | .geta2 => true
  | .seta2 mi h dy _ => WellFormed.sixty mi && WellFormed.hour h && WellFormed.dayof dy
  | .getvalid => true
  | .getrun => true
  | .setrun a => WellFormed.boolean a
  | .set32k a => WellFormed.boolean a
  | .sqwmode a => decide (a.toNat ≤ 5)
  | .sqwrate a => decide (a.toNat ≤ 3)
  | .latchaf => true
  | .forceconv a => WellFormed.boolean a
  | .getage => true
  | .setage _ => true

end Sys2Proof
end

