-- ==== Sys2Proof/Decode.lean ====
section
/-! DEFINITION. Command frames and their operations (30_encoding.md Part A): the opcode map R105, the decoder R107 (total on
any bytes, rejecting by name R106), and the encoder. -/

namespace Sys2Proof

/-- The operand layouts of R102. -/
inductive Format
  | fN | fB | fB2 | fB3 | fB4 | fB7 | fYMD | fDT | fAL1 | fAL2
  deriving DecidableEq, Repr

/-- The response layouts of R102. -/
inductive ResultFormat
  | p0 | pB | pR2 | pR3 | pR4 | pR7 | pDT | pTMP | pAL1 | pAL2
  deriving DecidableEq, Repr

/-- n, the operand bytes of a layout (R102). -/
def Format.operandBytes : Format → Nat
  | .fN => 0 | .fB => 1 | .fB2 => 2 | .fB3 => 3 | .fB4 => 4 | .fB7 => 7 | .fYMD => 4 | .fDT => 7 | .fAL1 => 5 | .fAL2 => 4

/-- m, the result bytes of a layout (R102). -/
def ResultFormat.resultBytes : ResultFormat → Nat
  | .p0 => 0 | .pB => 1 | .pR2 => 2 | .pR3 => 3 | .pR4 => 4 | .pR7 => 7 | .pDT => 7 | .pTMP => 2 | .pAL1 => 5 | .pAL2 => 4

/-- One row of the opcode map R105. -/
structure OpcodeRow where
  opcode : Nat
  mnemonic : String
  format : Format
  response : ResultFormat
  deriving DecidableEq, Repr

/-- The pure operations' rows of R105, opcodes 0x01-0x0C. -/
def pureRows : List OpcodeRow :=
  [⟨0x01, "BCDENC", .fB, .pB⟩, ⟨0x02, "BCDDEC", .fB, .pB⟩, ⟨0x03, "HRENC", .fB, .pB⟩, ⟨0x04, "HRDEC", .fB, .pB⟩,
   ⟨0x05, "DOW", .fYMD, .pB⟩, ⟨0x06, "DTENC", .fDT, .pR7⟩, ⟨0x07, "DTDEC", .fB7, .pDT⟩, ⟨0x08, "TMPDEC", .fB2, .pTMP⟩,
   ⟨0x09, "A1ENC", .fAL1, .pR4⟩, ⟨0x0A, "A1DEC", .fB4, .pAL1⟩, ⟨0x0B, "A2ENC", .fAL2, .pR3⟩,
   ⟨0x0C, "A2DEC", .fB3, .pAL2⟩]

/-- The device operations' rows of R105, opcodes 0x10-0x20. -/
def deviceRows : List OpcodeRow :=
  [⟨0x10, "GETDT", .fN, .pDT⟩, ⟨0x11, "SETDT", .fDT, .p0⟩, ⟨0x12, "GETTMP", .fN, .pTMP⟩, ⟨0x13, "GETA1", .fN, .pAL1⟩,
   ⟨0x14, "SETA1", .fAL1, .p0⟩, ⟨0x15, "GETA2", .fN, .pAL2⟩, ⟨0x16, "SETA2", .fAL2, .p0⟩, ⟨0x17, "GETVALID", .fN, .pB⟩,
   ⟨0x18, "GETRUN", .fN, .pB⟩, ⟨0x19, "SETRUN", .fB, .p0⟩, ⟨0x1A, "SET32K", .fB, .p0⟩, ⟨0x1B, "SQWMODE", .fB, .p0⟩,
   ⟨0x1C, "SQWRATE", .fB, .p0⟩, ⟨0x1D, "LATCHAF", .fN, .pB⟩, ⟨0x1E, "FORCECONV", .fB, .p0⟩, ⟨0x1F, "GETAGE", .fN, .pB⟩,
   ⟨0x20, "SETAGE", .fB, .p0⟩]

/-- The opcode map R105. -/
def opcodeMap : List OpcodeRow := pureRows ++ deviceRows

/-- The row of an opcode byte; none when the opcode is unassigned (R106). -/
def rowOf (opcode : Nat) : Option OpcodeRow := opcodeMap.find? fun r => r.opcode == opcode

/-- `1 + n`, the frame length an assigned opcode fixes (R100, R107). -/
def frameLength (opcode : Nat) : Option Nat := (rowOf opcode).map fun r => 1 + r.format.operandBytes

/-- The year `yhi * 256 + ylo` of its two little-endian bytes (R102). -/
def yearOf (ylo yhi : Byte) : Year := yhi ++ ylo

/-- `ylo = year mod 256` (R102). -/
def ylo (year : Year) : Byte := year.setWidth 8

/-- `yhi = year div 256` (R102). -/
def yhi (year : Year) : Byte := (year >>> 8).setWidth 8

/-- Why a frame is no command (R106). -/
inductive DecodeError
  /-- the frame has no opcode byte -/
  | emptyFrame
  /-- the opcode is 0x00, 0x0D-0x0F or 0x21-0xFF -/
  | unassignedOpcode (opcode : Byte)
  /-- the opcode is assigned and the frame has this many bytes, which is not `1 + n` -/
  | wrongLength (opcode : Byte) (length : Nat)
  deriving DecidableEq, Repr

/-- F_N. -/
def take0 (i : Instr) : List Byte → Option Instr
  | [] => some i
  | _ => none

/-- F_B. -/
def take1 (f : Byte → Instr) : List Byte → Option Instr
  | [a] => some (f a)
  | _ => none

/-- F_B2. -/
def take2 (f : Byte → Byte → Instr) : List Byte → Option Instr
  | [a, b] => some (f a b)
  | _ => none

/-- F_B3. -/
def take3 (f : Byte → Byte → Byte → Instr) : List Byte → Option Instr
  | [a, b, c] => some (f a b c)
  | _ => none

/-- F_B4 and F_AL2. -/
def take4 (f : Byte → Byte → Byte → Byte → Instr) : List Byte → Option Instr
  | [a, b, c, d] => some (f a b c d)
  | _ => none

/-- F_AL1. -/
def take5 (f : Byte → Byte → Byte → Byte → Byte → Instr) : List Byte → Option Instr
  | [a, b, c, d, e] => some (f a b c d e)
  | _ => none

/-- F_B7. -/
def take7 (f : Byte → Byte → Byte → Byte → Byte → Byte → Byte → Instr) : List Byte → Option Instr
  | [a, b, c, d, e, g, h] => some (f a b c d e g h)
  | _ => none

/-- F_YMD. -/
def takeYMD (f : Year → Byte → Byte → Instr) : List Byte → Option Instr
  | [lo, hi, mo, d] => some (f (yearOf lo hi) mo d)
  | _ => none

/-- F_DT. -/
def takeDT (f : Year → Byte → Byte → Byte → Byte → Byte → Instr) : List Byte → Option Instr
  | [lo, hi, mo, d, h, mi, s] => some (f (yearOf lo hi) mo d h mi s)
  | _ => none

/-- The operation of an opcode with these operand bytes; none for an unassigned opcode or a wrong count (R105, R106). -/
def instrOf (opcode : Nat) (operands : List Byte) : Option Instr :=
  match opcode with
  | 0x01 => take1 .bcdenc operands
  | 0x02 => take1 .bcddec operands
  | 0x03 => take1 .hrenc operands
  | 0x04 => take1 .hrdec operands
  | 0x05 => takeYMD .dow operands
  | 0x06 => takeDT .dtenc operands
  | 0x07 => take7 .dtdec operands
  | 0x08 => take2 .tmpdec operands
  | 0x09 => take5 .a1enc operands
  | 0x0A => take4 .a1dec operands
  | 0x0B => take4 .a2enc operands
  | 0x0C => take3 .a2dec operands
  | 0x10 => take0 .getdt operands
  | 0x11 => takeDT .setdt operands
  | 0x12 => take0 .gettmp operands
  | 0x13 => take0 .geta1 operands
  | 0x14 => take5 .seta1 operands
  | 0x15 => take0 .geta2 operands
  | 0x16 => take4 .seta2 operands
  | 0x17 => take0 .getvalid operands
  | 0x18 => take0 .getrun operands
  | 0x19 => take1 .setrun operands
  | 0x1A => take1 .set32k operands
  | 0x1B => take1 .sqwmode operands
  | 0x1C => take1 .sqwrate operands
  | 0x1D => take0 .latchaf operands
  | 0x1E => take1 .forceconv operands
  | 0x1F => take0 .getage operands
  | 0x20 => take1 .setage operands
  | _ => none

/-- The decoder (R107): reads OPC, looks up n, takes exactly the next n bytes. Every other frame is rejected by name (R106).
DEDUCED (log 12): a frame of no bytes is rejected too. -/
def decode : List Byte → Except DecodeError Instr
  | [] => .error .emptyFrame
  | opc :: operands =>
    match frameLength opc.toNat with
    | none => .error (.unassignedOpcode opc)
    | some _ =>
      match instrOf opc.toNat operands with
      | some i => .ok i
      | none => .error (.wrongLength opc (1 + operands.length))

/-- The opcode of an operation (R105). -/
def Instr.opcode : Instr → Nat
  | .bcdenc _ => 0x01
  | .bcddec _ => 0x02
  | .hrenc _ => 0x03
  | .hrdec _ => 0x04
  | .dow _ _ _ => 0x05
  | .dtenc _ _ _ _ _ _ => 0x06
  | .dtdec _ _ _ _ _ _ _ => 0x07
  | .tmpdec _ _ => 0x08
  | .a1enc _ _ _ _ _ => 0x09
  | .a1dec _ _ _ _ => 0x0A
  | .a2enc _ _ _ _ => 0x0B
  | .a2dec _ _ _ => 0x0C
  | .getdt => 0x10
  | .setdt _ _ _ _ _ _ => 0x11
  | .gettmp => 0x12
  | .geta1 => 0x13
  | .seta1 _ _ _ _ _ => 0x14
  | .geta2 => 0x15
  | .seta2 _ _ _ _ => 0x16
  | .getvalid => 0x17
  | .getrun => 0x18
  | .setrun _ => 0x19
  | .set32k _ => 0x1A
  | .sqwmode _ => 0x1B
  | .sqwrate _ => 0x1C
  | .latchaf => 0x1D
  | .forceconv _ => 0x1E
  | .getage => 0x1F
  | .setage _ => 0x20

/-- The operand bytes A0..A(n-1) of an operation (R102). -/
def Instr.operands : Instr → List Byte
  | .bcdenc a => [a]
  | .bcddec a => [a]
  | .hrenc a => [a]
  | .hrdec a => [a]
  | .dow y mo d => [ylo y, yhi y, mo, d]
  | .dtenc y mo d h mi s => [ylo y, yhi y, mo, d, h, mi, s]
  | .dtdec r0 r1 r2 r3 r4 r5 r6 => [r0, r1, r2, r3, r4, r5, r6]
  | .tmpdec r0 r1 => [r0, r1]
  | .a1enc s mi h dy f => [s, mi, h, dy, f]
  | .a1dec r0 r1 r2 r3 => [r0, r1, r2, r3]
  | .a2enc mi h dy f => [mi, h, dy, f]
  | .a2dec r0 r1 r2 => [r0, r1, r2]
  | .getdt => []
  | .setdt y mo d h mi s => [ylo y, yhi y, mo, d, h, mi, s]
  | .gettmp => []
  | .geta1 => []
  | .seta1 s mi h dy f => [s, mi, h, dy, f]
  | .geta2 => []
  | .seta2 mi h dy f => [mi, h, dy, f]
  | .getvalid => []
  | .getrun => []
  | .setrun a => [a]
  | .set32k a => [a]
  | .sqwmode a => [a]
  | .sqwrate a => [a]
  | .latchaf => []
  | .forceconv a => [a]
  | .getage => []
  | .setage a => [a]

/-- The encoder: the frame of an operation (R100). -/
def encode (i : Instr) : List Byte := BitVec.ofNat 8 i.opcode :: i.operands

/-- m, the result bytes of an operation when its status delivers results (R105). -/
def Instr.resultBytes (i : Instr) : Nat :=
  match rowOf i.opcode with
  | some r => r.response.resultBytes
  | none => 0

/-- Bytes 0, 1, .. of `w`, byte 0 its least significant. -/
def bytesOfNat (w : Nat) : Nat → List Byte
  | 0 => []
  | n + 1 => BitVec.ofNat 8 w :: bytesOfNat (w / 256) n

/-- The frame of a table word: `nbits / 8` bytes, made up with operand bytes of zero to the frame length of its opcode where
the table gives fewer (opcode_table.json fixes only the opcode byte). -/
def frameOfWord (nbits w : Nat) : List Byte :=
  let given := max 1 (nbits / 8)
  let v := w % 2 ^ nbits
  bytesOfNat v (max given ((frameLength (v % 256)).getD given))

/-- The operation the decoder reads from a table word. -/
def decodeTableWord (nbits w : Nat) : Option Instr := (decode (frameOfWord nbits w)).toOption

end Sys2Proof
end

