-- ==== Sys2Proof/Config.lean ====
section
/-! DEFINITION. What the spec leaves open: the parameters of 00_scope.md R6 and the free values of the device oracle of
20_memory.md R72. None of these has a body, so nothing proved rests on a value of one. -/

namespace Sys2Proof.Config

/-- CONV_POLL_MAX less one. R6 and 45_control_status.md R318 ask for a natural number of at least 1 and give no value. -/
opaque convPollMaxLessOne : Nat

/-- CONV_POLL_MAX (R6, R318): any natural number of at least 1. -/
def convPollMax : Nat := convPollMaxLessOne + 1

/-- DEV_INIT (R6, R40): the contents of the device register at an address at the start of a run. -/
opaque devInit : Nat → Byte

/-- Whether the transport ever returns from the transaction with this number (R72, R358). -/
opaque oracleReturns : Nat → Bool

/-- The `ack` of the transaction with this number, when it returns (R72). -/
opaque oracleAcks : Nat → Bool

/-- The byte at this index that the device answers to the read transaction with this number (R72). -/
opaque oracleByte : Nat → Nat → Byte

/-- What the device register at this address holds after the action of the sequencer with this number (R72: the chip may
change any register at any time, and nothing says that a write took effect). -/
opaque oracleReg : Nat → Nat → Byte

end Sys2Proof.Config
end

