-- ==== Sys2Proof/Machine/State.lean ====
section
/-! DEFINITION. The state of the block, the device behind it and the inputs they read (10_state.md). All of it is plain
data. INVENTORY.md lists every field with its rule and its reset value. -/

namespace Sys2Proof.Machine

/-- The status codes of 60_exceptions.md R341; no other value of ST is ever produced. -/
inductive Status
  | ok | corruptData | argRange | busError | convTimeout | illegalCommand
  deriving DecidableEq, Repr

/-- A response: ST and the result bytes Q0..Q(m-1), exactly m of them (30_encoding.md R101, 10_state.md R32). -/
structure Response where
  status : Status
  results : List Byte
  deriving DecidableEq, Repr

/-- What the sequencer holds while BUSY (R33, R34). A part that holds no value is empty or none, as R34 says of the start
of every operation. -/
structure Busy where
  /-- the transactions the operation has completed -/
  phase : Nat
  /-- the bytes of the last read transaction -/
  buf : List Byte
  /-- the cache-of-one of a read-modify-write -/
  t : Option Byte
  /-- the poll reads made by FORCECONV -/
  k : Option Nat
  deriving DecidableEq, Repr

/-- The sequencer is IDLE or BUSY (R33). -/
inductive Sequencer
  | idle
  | busy (b : Busy)
  deriving DecidableEq, Repr

/-- How a transaction ends: `ack = true`, `ack = false`, or it never returns (20_memory.md R70, 60_exceptions.md R358). -/
inductive Reply
  | ack | nack | silent
  deriving DecidableEq, Repr

/-- What the device does with one transaction (R72, R73, R84; logs 3, 14). -/
structure Answer where
  reply : Reply
  /-- a read's bytes, in order, where they are not the contents of the registers -/
  data : List Byte
  /-- of a write that is not acknowledged, how many of its bytes reached their registers (R84; `State.landedAt`) -/
  landed : Nat
  deriving DecidableEq, Repr

/-- Which device the transport is bound to (R42): the unconstrained oracle of R72, or the simulator device of R73. -/
inductive Transport
  | oracle | sim
  deriving DecidableEq, Repr

/-- One transaction of the event history (R72), with how it ended and, for an acknowledged read, its data. -/
inductive Event
  | read (addr n : Nat) (reply : Reply) (data : List Byte)
  | write (addr : Nat) (data : List Byte) (reply : Reply)
  deriving DecidableEq, Repr

/-- The device registers DEV[0x00..0x12] (R36): the cell of each, addresses rising. An address that is not listed does not
exist and holds no value (R78). `Memory.wf` (Ops.lean) says the form. -/
abbrev Memory := List Host.Cell

/-- The whole state. -/
structure State where
  /-- OPC, A0, .., A(n-1) of the command presented last (R31, R100); empty when they hold no value (R39). DESIGN CHOICE
  (log 20): of a frame of more than 8 bytes, which is no command, the bytes past A6 are kept here too. -/
  command : List Byte
  /-- ST, Q0, .., Q(m-1) (R31, R101); none when they hold no value (R39, R350) -/
  response : Option Response
  /-- IDLE, or BUSY with phase, buf, t and k (R33, R34) -/
  seq : Sequencer
  /-- DEV[0x00..0x12] (R36) -/
  dev : Memory
  /-- the event history (R72), oldest first -/
  events : List Event
  /-- the model's own: the frames the host is to present, in order (R350, R358; log 10) -/
  host : List (List Byte)
  /-- the model's own: the device bound to the transport (R42; log 4) -/
  transport : Transport
  /-- the model's own: explicit answers to the coming transactions, used before the device's own (R73; log 3) -/
  script : List Answer
  /-- the model's own: the number of the next transaction, which the oracle's free values are applied to (log 2) -/
  draws : Nat
  /-- the model's own: explicit changes the chip makes of its own at the coming actions of the sequencer, one list of registers
  for each action, used before the device's own (R72; log 13) -/
  chip : List (List Host.Cell)
  /-- the model's own: the number of the next action, which the chip's free changes are applied to (log 2) -/
  moment : Nat
  /-- the parameter CONV_POLL_MAX of this machine (00_scope.md R6; log 5) -/
  convPollMax : Nat
  /-- the model's own: the reset input is asserted after this many more actions of the sequencer (R380; log 9) -/
  resetIn : Option Nat
  deriving DecidableEq, Repr

/-- The faults. None is raised by a step: an operation ends in a status, and a transaction that never returns leaves the
block BUSY (R358). -/
inductive Fault
  /-- Raised by the host's reads of ST and Q0..Q6 (`State.hostReadST`, `State.hostReadQ`), never by `step`: the host reads
  a register that holds no value, which R32 calls a fault of the host. Safe: no value is invented. -/
  | hostReadNoValue
  deriving DecidableEq, Repr

/-- The refusals. -/
inductive Refusal
  /-- Raised by an arm of `exec` that has no meaning yet; no arm has none, so nothing raises it. Safe. -/
  | notModelled (mnemonic : String)
  deriving DecidableEq, Repr

/-- The machine right after reset (R39, R40, R41, R380, R381). The device registers hold DEV_INIT, which is uninterpreted
(log 6). The block waits in IDLE. DESIGN CHOICE: the model's own fields (logs 2, 3, 4, 9, 10, 13). -/
def State.reset : State where
  command := []
  response := none
  seq := .idle
  dev := (List.range 19).map fun a => (a, Config.devInit a)
  events := []
  host := []
  transport := .oracle
  script := []
  draws := 0
  chip := []
  moment := 0
  convPollMax := Config.convPollMax
  resetIn := none

end Sys2Proof.Machine
end

