-- ==== Sys2Proof/Machine/Flags.lean ====
section
/-! DEFINITION. Bits and fields of bytes (00_scope.md R7, R8), the masks of the control and status registers
(30_encoding.md R118), and the values of ST (60_exceptions.md R341). The block has no condition-code flags (10_state.md
R35); the device's flag bits are bits of its registers. -/

namespace Sys2Proof.Machine

/-- `b[i]` (R8). -/
def bit (b : Byte) (i : Nat) : Bool := b.getLsbD i

/-- `b[7:4]`, the high nibble (R7). -/
def highNibble (b : Byte) : Nat := (b >>> 4).toNat

/-- `b[3:0]`, the low nibble (R7). -/
def lowNibble (b : Byte) : Nat := (b &&& 0x0F#8).toNat

/-- `b[7:6]`, the top two bits (R7). -/
def topTwo (b : Byte) : Byte := b >>> 6

/-- A byte whose bit `i` is `v` and whose other bits are 0. -/
def bitAt (v : Bool) (i : Nat) : Byte := if v then 1#8 <<< i else 0#8

/-- 1 or 0 (45_control_status.md R300, R302). -/
def boolByte (v : Bool) : Byte := if v then 1#8 else 0#8

/-- ST of a status (R341). -/
def Status.code : Status → Byte
  | .ok => 0x00#8
  | .corruptData => 0x01#8
  | .argRange => 0x02#8
  | .busError => 0x03#8
  | .convTimeout => 0x04#8
  | .illegalCommand => 0x05#8

/-- The statuses that deliver results (R101, R341). -/
def Status.delivers : Status → Bool
  | .ok => true
  | .corruptData => true
  | .argRange => false
  | .busError => false
  | .convTimeout => false
  | .illegalCommand => false

/-- Masks of the control register 0x0E (R37, R118). -/
def maskA1IE : Byte := 0x01#8
@[inherit_doc maskA1IE] def maskA2IE : Byte := 0x02#8
@[inherit_doc maskA1IE] def maskINTCN : Byte := 0x04#8
@[inherit_doc maskA1IE] def maskRS : Byte := 0x18#8
@[inherit_doc maskA1IE] def maskCONV : Byte := 0x20#8
@[inherit_doc maskA1IE] def maskBBSQW : Byte := 0x40#8
@[inherit_doc maskA1IE] def maskEOSC : Byte := 0x80#8

/-- Masks of the status register 0x0F (R38, R118). -/
def maskA1F : Byte := 0x01#8
@[inherit_doc maskA1F] def maskA2F : Byte := 0x02#8
@[inherit_doc maskA1F] def maskBSY : Byte := 0x04#8
@[inherit_doc maskA1F] def maskEN32KHZ : Byte := 0x08#8
@[inherit_doc maskA1F] def maskOSF : Byte := 0x80#8

/-- CONV of a control byte: a conversion is requested or in progress (R37). -/
def conv (control : Byte) : Bool := bit control 5

/-- EOSC of a control byte: 0 while the oscillator runs (R37). -/
def eosc (control : Byte) : Bool := bit control 7

/-- OSF of a status byte: the stored time is not trustworthy (R38). -/
def osf (status : Byte) : Bool := bit status 7

end Sys2Proof.Machine
end

