-- ==== Sys2Proof/Machine/Codec.lean ====
section
/-! DEFINITION. The codec functions the operations are made of: BCD and hour (41_bcd_hour.md), date-time (42_datetime.md),
temperature (43_temperature.md), alarms (44_alarm.md). Values are natural numbers until they are stored in a byte (00_scope.md
R8). -/

namespace Sys2Proof.Machine

/-- The byte of a result: every rule says why `v` is in 0..255 (R8). -/
def toByte (v : Nat) : Byte := BitVec.ofNat 8 v

/-- `bcd_enc(v)` (R150): the tens count keeps its low 4 bits. -/
def bcdEnc (v : Nat) : Byte := (toByte (v / 10 % 16) <<< 4) ||| toByte (v % 10)

/-- `bcd_dec(b)` (R152), whatever the nibbles hold. -/
def bcdDec (b : Byte) : Nat := highNibble b * 10 + lowNibble b

/-- `bcd_digits_ok(b, hi)` (R10): a tens digit of at most 3 bits never exceeds 9. -/
def bcdDigitsOk (b : Byte) (hi : Nat) : Bool :=
  if 7 ≤ hi then decide (highNibble b ≤ 9) && decide (lowNibble b ≤ 9) else decide (lowNibble b ≤ 9)

/-- `hour_enc(h)` (R154): always 24-hour. -/
def hourEnc (h : Nat) : Byte := bcdEnc h

/-- `hour_dec(b)` (R156), with the 12 o'clock boundary decoded literally (R158). -/
def hourDec (b : Byte) : Nat × Bool :=
  if bit b 6 then
    let h := bcdDec (b &&& 0x1F#8)
    (if bit b 5 then h + 12 else h, bcdDigitsOk (b &&& 0x1F#8) 4)
  else
    (bcdDec b, bcdDigitsOk b 7)

/-- The table T of R180, by month. -/
def monthOffset : Nat → Nat
  | 1 => 0 | 2 => 3 | 3 => 2 | 4 => 5 | 5 => 0 | 6 => 3 | 7 => 5 | 8 => 1 | 9 => 4 | 10 => 6 | 11 => 2 | 12 => 4
  | _ => 0

/-- `dow(y, m, d)` (R180), 0 = Sunday. It is used for months 1..12 only. -/
def dayOfWeek (y m d : Nat) : Nat :=
  let y' := if m < 3 then y - 1 else y
  (y' + y' / 4 - y' / 100 + y' / 400 + monthOffset m + d) % 7

/-- A date and time of day, as the operands and results name it (30_encoding.md R102). -/
structure DateTime where
  year : Nat
  month : Nat
  day : Nat
  hour : Nat
  minute : Nat
  second : Nat
  deriving DecidableEq, Repr

/-- `dt_enc` (R183): the bytes of 0x00..0x06, the century bit never set. -/
def dtEnc (x : DateTime) : List Byte :=
  [bcdEnc x.second, bcdEnc x.minute, hourEnc x.hour, bcdEnc (dayOfWeek x.year x.month x.day), bcdEnc x.day,
   bcdEnc x.month, bcdEnc ((x.year - 2000) % 100)]

/-- `dt_dec` (R185): the day-of-week byte is read and discarded; only digits are checked. -/
def dtDec (r0 r1 r2 _r3 r4 r5 r6 : Byte) : DateTime × Bool :=
  let h := hourDec r2
  ({ second := bcdDec (r0 &&& 0x7F#8)
     minute := bcdDec r1
     hour := h.1
     day := bcdDec r4
     month := bcdDec (r5 &&& 0x7F#8)
     year := 2000 + bcdDec r6 + (if bit r5 7 then 100 else 0) },
   bcdDigitsOk (r0 &&& 0x7F#8) 6 && bcdDigitsOk r1 7 && h.2 && bcdDigitsOk r4 7 && bcdDigitsOk (r5 &&& 0x7F#8) 6
     && bcdDigitsOk r6 7)

/-- The results P_DT of a date-time (R102, R186): the year little-endian. -/
def dtResults (x : DateTime) : List Byte :=
  [toByte (x.year % 256), toByte (x.year / 256), toByte x.month, toByte x.day, toByte x.hour, toByte x.minute,
   toByte x.second]

/-- `temp_dec(r0, r1)` (R220): the whole-degree byte and the quarters `r1[7:6]`, as the results P_TMP. -/
def tempDec (r0 r1 : Byte) : List Byte := [r0, topTwo r1]

/-- The temperature that P_TMP results stand for, in quarters of a degree (R220): the fraction is always added. -/
def tempInQuarters (deg quarters : Byte) : Int := 4 * sext8 deg + quarters.toNat

/-- The source's fractional percentage 0, 25, 50 or 75 (R220). -/
def tempPercent (quarters : Byte) : Nat := 25 * quarters.toNat

/-- An alarm-one setting: the time fields, the day-of and the 5-bit control word (R240). -/
structure AlarmOne where
  second : Nat
  minute : Nat
  hour : Nat
  dayof : Nat
  flags : Byte
  deriving DecidableEq, Repr

/-- `a1_enc` (R241, R114): the bytes of 0x07..0x0A; of the flags only bits 4:0 are used. -/
def a1Enc (x : AlarmOne) : List Byte :=
  let f := x.flags &&& 0x1F#8
  [bcdEnc x.second ||| bitAt (bit f 0) 7, bcdEnc x.minute ||| bitAt (bit f 1) 7, hourEnc x.hour ||| bitAt (bit f 2) 7,
   bcdEnc x.dayof ||| ((f >>> 3) <<< 6)]

/-- `a1_dec` (R243, R114). -/
def a1Dec (r0 r1 r2 r3 : Byte) : AlarmOne × Bool :=
  let h := hourDec (r2 &&& 0x7F#8)
  ({ second := bcdDec (r0 &&& 0x7F#8)
     minute := bcdDec (r1 &&& 0x7F#8)
     hour := h.1
     dayof := bcdDec (r3 &&& 0x3F#8)
     flags := bitAt (bit r0 7) 0 ||| bitAt (bit r1 7) 1 ||| bitAt (bit r2 7) 2 ||| (topTwo r3 <<< 3) },
   bcdDigitsOk (r0 &&& 0x7F#8) 6 && bcdDigitsOk (r1 &&& 0x7F#8) 6 && h.2 && bcdDigitsOk (r3 &&& 0x3F#8) 5)

/-- The results P_AL1 (R102, R244). -/
def a1Results (x : AlarmOne) : List Byte :=
  [toByte x.second, toByte x.minute, toByte x.hour, toByte x.dayof, x.flags]

/-- An alarm-two setting: no seconds, and a 4-bit control word (R245). -/
structure AlarmTwo where
  minute : Nat
  hour : Nat
  dayof : Nat
  flags : Byte
  deriving DecidableEq, Repr

/-- `a2_enc` (R246, R115): the bytes of 0x0B..0x0D; of the flags only bits 3:0 are used. -/
def a2Enc (x : AlarmTwo) : List Byte :=
  let f := x.flags &&& 0x0F#8
  [bcdEnc x.minute ||| bitAt (bit f 0) 7, hourEnc x.hour ||| bitAt (bit f 1) 7, bcdEnc x.dayof ||| ((f >>> 2) <<< 6)]

/-- `a2_dec` (R248, R115). -/
def a2Dec (r0 r1 r2 : Byte) : AlarmTwo × Bool :=
  let h := hourDec (r1 &&& 0x7F#8)
  ({ minute := bcdDec (r0 &&& 0x7F#8)
     hour := h.1
     dayof := bcdDec (r2 &&& 0x3F#8)
     flags := bitAt (bit r0 7) 0 ||| bitAt (bit r1 7) 1 ||| (topTwo r2 <<< 2) },
   bcdDigitsOk (r0 &&& 0x7F#8) 6 && h.2 && bcdDigitsOk (r2 &&& 0x3F#8) 5)

/-- The results P_AL2 (R102, R249). -/
def a2Results (x : AlarmTwo) : List Byte := [toByte x.minute, toByte x.hour, toByte x.dayof, x.flags]

/-- The square-wave pin modes (30_encoding.md R119). -/
inductive SqwMode
  | off | batteryBackup | clock | alarmOne | alarmTwo | alarmBoth
  deriving DecidableEq, Repr

/-- The mode of an operand code (R119); none above 5. -/
def sqwModeOf : Nat → Option SqwMode
  | 0 => some .off
  | 1 => some .batteryBackup
  | 2 => some .clock
  | 3 => some .alarmOne
  | 4 => some .alarmTwo
  | 5 => some .alarmBoth
  | _ => none

/-- MODESET (45_control_status.md R309). -/
def modeSet : SqwMode → Byte
  | .off => maskINTCN
  | .batteryBackup => maskBBSQW
  | .clock => 0x00#8
  | .alarmOne => maskA1IE ||| maskINTCN
  | .alarmTwo => maskA2IE ||| maskINTCN
  | .alarmBoth => maskA1IE ||| maskA2IE ||| maskINTCN

/-- The bits every mode clears first, 0x47 (R309). -/
def modeClear : Byte := maskA1IE ||| maskA2IE ||| maskINTCN ||| maskBBSQW

end Sys2Proof.Machine
end

