-- ==== Sys2Proof/Machine/Operands.lean ====
section
/-! DEFINITION. How operations take their operand bytes: the fields they stand for (30_encoding.md R102) and the argument
checks (42_datetime.md R181, 44_alarm.md R240, R245, 30_encoding.md R104). -/

namespace Sys2Proof.Machine

/-- The date-time of operands F_DT (R102). -/
def dtOf (y : Year) (mo d h mi s : Byte) : DateTime :=
  { year := y.toNat, month := mo.toNat, day := d.toNat, hour := h.toNat, minute := mi.toNat, second := s.toNat }

/-- The setting of operands F_AL1 (R102, R240). -/
def a1Of (s mi h dy flags : Byte) : AlarmOne :=
  { second := s.toNat, minute := mi.toNat, hour := h.toNat, dayof := dy.toNat, flags := flags }

/-- The setting of operands F_AL2 (R102, R245). -/
def a2Of (mi h dy flags : Byte) : AlarmTwo :=
  { minute := mi.toNat, hour := h.toNat, dayof := dy.toNat, flags := flags }

/-- `date_args_ok(y, mo, d)` (R181). -/
def dateArgsOk (y mo d : Nat) : Bool :=
  decide (2000 ≤ y ∧ y ≤ 2199 ∧ 1 ≤ mo ∧ mo ≤ 12 ∧ 1 ≤ d ∧ d ≤ 31)

/-- `dt_args_ok` (R181). -/
def dtArgsOk (x : DateTime) : Bool :=
  dateArgsOk x.year x.month x.day && decide (x.hour ≤ 23 ∧ x.minute ≤ 59 ∧ x.second ≤ 59)

/-- `a1_args_ok` (R240): the control word is never checked. -/
def a1ArgsOk (x : AlarmOne) : Bool :=
  decide (x.second ≤ 59 ∧ x.minute ≤ 59 ∧ x.hour ≤ 23 ∧ 1 ≤ x.dayof ∧ x.dayof ≤ 31)

/-- `a2_args_ok` (R245). -/
def a2ArgsOk (x : AlarmTwo) : Bool :=
  decide (x.minute ≤ 59 ∧ x.hour ≤ 23 ∧ 1 ≤ x.dayof ∧ x.dayof ≤ 31)

/-- The hour check of HRENC (R155). -/
def hourArgOk (a : Byte) : Bool := decide (a.toNat ≤ 23)

/-- A boolean operand, 0 or 1 (R104); none for any other value. -/
def boolArg (a : Byte) : Option Bool :=
  match a.toNat with
  | 0 => some false
  | 1 => some true
  | _ => none

/-- The rate code check of SQWRATE (R104, R310). -/
def rateArgOk (a : Byte) : Bool := decide (a.toNat ≤ 3)

end Sys2Proof.Machine
end

