-- ==== Sys2Proof/Machine/Ops.lean ====
section
/-! DEFINITION. The named operations over the state that every meaning is written with: the device registers and the two
transactions (20_memory.md), the end of an operation and `raise` (60_exceptions.md R340), the handshake (R350), block reset
(70_reset_and_hazards.md R380), the read-modify-write (45_control_status.md R280). An operation is written as the spec's
pseudocode is, each transaction being followed by what is done after its acknowledge. -/

namespace Sys2Proof.Machine

/-! ### The device registers -/

/-- The content of the device register at `a`; none where the address does not exist (R78). -/
def Memory.read? (m : Memory) (a : Nat) : Option Byte := (m.find? fun c => c.1 == a).map fun c => c.2

/-- The device register at `a` takes the value `v`; an address that does not exist takes nothing (R78). -/
def Memory.write (m : Memory) (a : Nat) (v : Byte) : Memory := m.map fun c => if c.1 = a then (a, v) else c

/-- `v[i]` goes to address `a + i` (R70, R71). -/
def Memory.writeBytes (m : Memory) (a : Nat) : List Byte → Memory
  | [] => m
  | v :: vs => (m.write a v).writeBytes (a + 1) vs

/-- The listed registers take the listed values, in order. -/
def Memory.writeCells (m : Memory) : List Host.Cell → Memory
  | [] => m
  | c :: cs => (m.write c.1 c.2).writeCells cs

/-- The form of the device memory: exactly the registers 0x00..0x12, each once, addresses rising (R36, R78). -/
def Memory.wf (m : Memory) : Bool := m.map (fun c => c.1) == List.range 19

/-! ### What the device does with a transaction -/

/-- The bound device's own answer to the transaction with this number. SIM acknowledges and answers its contents (R73). The
oracle is free in every respect (R72). -/
def Transport.answer : Transport → Nat → Answer
  | .sim, _ => { reply := .ack, data := [], landed := 0 }
  | .oracle, n =>
    { reply := if Config.oracleReturns n then (if Config.oracleAcks n then .ack else .nack) else .silent
      data := (List.range 7).map fun i => Config.oracleByte n i
      landed := 0 }

/-- The registers the bound device changes of its own at the action with this number. SIM changes none (R73). The oracle may
change any register at any time (R72), so all of them are free. -/
def Transport.chip : Transport → Nat → List Host.Cell
  | .sim, _ => []
  | .oracle, n => (List.range 19).map fun a => (a, Config.oracleReg n a)

/-- The registers the chip changes of its own at the action that comes after `j` others: explicit ones, or the bound device's
own (log 13). -/
def State.chipAt (s : State) (j : Nat) : List Host.Cell := (s.chip[j]?).getD (s.transport.chip (s.moment + j))

/-- The registers the chip changes of its own at the next action. -/
def State.chipNow (s : State) : List Host.Cell := s.chipAt 0

/-- The device's answer to the transaction that comes after `j` others: an explicit one, or the bound device's own. -/
def State.answerAt (s : State) (j : Nat) : Answer := (s.script[j]?).getD (s.transport.answer (s.draws + j))

/-- How many bytes of a write that comes after `j` other transactions reach their registers when it is not acknowledged. SIM
changes nothing at a write it is made to NACK (R84). Otherwise what the answer gives, so that any prefix or none can be (R84;
log 14); of a write that never returns the spec says nothing more on any device (log 8). -/
def State.landedAt (s : State) (j : Nat) : Nat :=
  if s.transport = .sim ∧ (s.answerAt j).reply = .nack then 0 else (s.answerAt j).landed

/-- The byte at index `i` that the device answers to a read from `addr` issued now: the answer's own, or the content of the
register. Log 7: a register that is not listed (in no state of the form of `Memory.wf`) answers a free value. -/
def State.dataAt (s : State) (addr i : Nat) : Byte :=
  ((s.answerAt 0).data[i]?).getD ((s.dev.read? (addr + i)).getD (Config.oracleByte s.draws i))

/-- The bytes answered to a read of `n` bytes from `addr` issued now (R70: `data[i]` is from address `addr + i`). -/
def State.dataBytes (s : State) (addr n : Nat) : List Byte := (List.range n).map (s.dataAt addr)

/-! ### Actions, reset, BUSY and IDLE -/

/-- Block reset (R380, R39): IDLE, no register of the block holds a value, the device is untouched (R382). -/
def State.blockReset (s : State) : State := { s with command := [], response := none, seq := .idle, resetIn := none }

/-- The reset input is asserted now (log 9). -/
def State.resetDue (s : State) : Bool := s.resetIn == some 0

/-- One action of the sequencer has passed (a wait, an acceptance, a transaction, a response): the chip has changed what it
changes of its own (R72; log 13), and there is one action fewer to the reset input (log 9). -/
def State.tick (s : State) : State :=
  { s with
    dev := s.dev.writeCells s.chipNow
    chip := s.chip.tail
    moment := s.moment + 1
    resetIn := s.resetIn.map fun n => n - 1 }

/-- The block accepts a command frame (R350): the interface registers take it and the last response is gone. DESIGN CHOICE
(log 20): R350 lets the host present any frame and R31 has only OPC and A0..A6, so the spec does not say where the bytes past
A6 of an over-long frame go; `command` keeps the frame whole, and no register reads those bytes (`State.a`). -/
def State.accept (frame : List Byte) (rest : List (List Byte)) (s : State) : State :=
  { s.tick with command := frame, response := none, host := rest }

/-- An operation starts: BUSY in phase 0, and buf, t and k hold no value (R33, R34). -/
def State.begin (s : State) : State := { s with seq := .busy { phase := 0, buf := [], t := none, k := none } }

/-- Change what the sequencer holds while BUSY. -/
def Sequencer.map (f : Busy → Busy) : Sequencer → Sequencer
  | .idle => .idle
  | .busy b => .busy (f b)

/-- Change what the sequencer of a state holds while BUSY. -/
def State.mapBusy (f : Busy → Busy) (s : State) : State := { s with seq := s.seq.map f }

/-- `t <- v`, the cache-of-one (R280). -/
def State.holdT (v : Byte) (s : State) : State := s.mapBusy fun b => { b with t := some v }

/-- `k <- n` (R316). -/
def State.holdK (n : Nat) (s : State) : State := s.mapBusy fun b => { b with k := some n }

/-- `k <- k + 1` (R316). -/
def State.countPoll (s : State) : State := s.mapBusy fun b => { b with k := b.k.map fun n => n + 1 }

/-- The end of an operation: the response is written and the block is IDLE (R340, R350). A reset that is due comes first,
and then there is no response (R380). -/
def respond (r : Response) (s : State) : State :=
  if s.resetDue then s.blockReset else { s with response := some r, seq := .idle }.tick

/-- `raise S` (R340, R348): the one way an error status is taken. The operation ends where it stands, nothing is rolled
back, there are no result bytes, and the block returns to IDLE (R349). -/
def raise (st : Status) (s : State) : State := respond { status := st, results := [] } s

/-- `finish(Q0, ..)` (00_scope.md R8): status OK with the results. -/
def finish (results : List Byte) (s : State) : State := respond { status := .ok, results := results } s

/-- `finish_corrupt(Q0, ..)` (R8): the same results with status CORRUPT_DATA. -/
def finishCorrupt (results : List Byte) (s : State) : State := respond { status := .corruptData, results := results } s

/-- If `ok` finish with OK else finish_corrupt (R346). -/
def finishChecked (ok : Bool) (results : List Byte) (s : State) : State :=
  if ok then finish results s else finishCorrupt results s

/-- An illegal command (R345): ends before any transaction and with no other effect. -/
def illegalCommand (s : State) : State := raise .illegalCommand s.begin

/-! ### The two transactions -/

/-- A transaction has been issued: it is in the history, the device registers are `dev` and then as the chip leaves them, and
the device's next answer is the next one. -/
def State.issued (ev : Event) (dev : Memory) (s : State) : State :=
  { s with
    events := s.events ++ [ev]
    dev := dev
    script := s.script.tail
    draws := s.draws + 1 }.tick

/-- `phase <- phase + 1` when the acknowledge returns (R33). -/
def State.advance (s : State) : State := s.mapBusy fun b => { b with phase := b.phase + 1 }

/-- `buf` takes the bytes of a read (R34). -/
def State.fill (bytes : List Byte) (s : State) : State := s.mapBusy fun b => { b with buf := bytes }

/-- `MemRead(addr, n)` (R70), then `k` on the bytes read, or BUS_ERROR when it is not acknowledged (R343). One that never
returns leaves the block BUSY (R358). A reset that is due comes first (R380). -/
def memRead (addr n : Nat) (s : State) (k : (Nat → Byte) → State → State) : State :=
  if s.resetDue then s.blockReset
  else
    match (s.answerAt 0).reply with
    | .ack =>
      k (s.dataAt addr)
        ((s.issued (.read addr n .ack (s.dataBytes addr n)) s.dev).fill (s.dataBytes addr n)).advance
    | .nack => raise .busError (s.issued (.read addr n .nack []) s.dev)
    | .silent => s.issued (.read addr n .silent []) s.dev

/-- `MemWrite(addr, n, v)` with n the bytes of `v` (R70), then `k`, or BUS_ERROR when it is not acknowledged (R343), after
which the first `landedAt` of the bytes have reached their registers (R84). One that never returns leaves the block BUSY
(R358). A reset that is due comes first (R380). -/
def memWrite (addr : Nat) (v : List Byte) (s : State) (k : State → State) : State :=
  if s.resetDue then s.blockReset
  else
    match (s.answerAt 0).reply with
    | .ack => k (s.issued (.write addr v .ack) (s.dev.writeBytes addr v)).advance
    | .nack =>
      raise .busError (s.issued (.write addr v .nack) (s.dev.writeBytes addr (v.take (s.landedAt 0))))
    | .silent => s.issued (.write addr v .silent) (s.dev.writeBytes addr (v.take (s.landedAt 0)))

/-- The byte a read-modify-write stores (R280, R324): the bits outside `clr` exactly as read. -/
def rmwByte (t clr set : Byte) : Byte := (t &&& ~~~clr) ||| set

/-- `RMW(addr, clr, set)` (R280), then `k` on the byte read. The write is issued even when nothing changes. -/
def rmw (addr : Nat) (clr set : Byte) (s : State) (k : Byte → State → State) : State :=
  memRead addr 1 s fun d s =>
    memWrite addr [rmwByte (d 0) clr set] (s.holdT (d 0)) fun s => k (d 0) s

/-! ### What the host reads -/

/-- The host reads ST; before the first response, and while the block is BUSY, it holds no value (R39, R350). -/
def State.hostReadST (s : State) : Except Fault Byte :=
  match s.response with
  | some r => .ok r.status.code
  | none => .error .hostReadNoValue

/-- The host reads Qi; past the response's m bytes it is a fault of the host, never a value (R32). -/
def State.hostReadQ (s : State) (i : Nat) : Except Fault Byte :=
  match s.response with
  | some r =>
    match r.results[i]? with
    | some q => .ok q
    | none => .error .hostReadNoValue
  | none => .error .hostReadNoValue

/-- OPC, where it holds a value (R31, R39). -/
def State.opc (s : State) : Option Byte := s.command[0]?

/-- Ai, where it is part of the command; there is none past A6 (R31, R32; log 20). -/
def State.a (s : State) (i : Nat) : Option Byte := if i < 7 then s.command[i + 1]? else none

end Sys2Proof.Machine
end

