-- ==== Sys2Proof/Machine/Alarm.lean ====
section
/-! DEFINITION. The meanings of A1ENC, A1DEC, A2ENC, A2DEC, GETA1, SETA1, GETA2 and SETA2 (44_alarm.md). -/

namespace Sys2Proof.Machine

/-- The end of A1DEC and GETA1 (R244, R250). -/
def finishA1 (x : AlarmOne × Bool) (s : State) : State := finishChecked x.2 (a1Results x.1) s

/-- The end of A2DEC and GETA2 (R249, R252). -/
def finishA2 (x : AlarmTwo × Bool) (s : State) : State := finishChecked x.2 (a2Results x.1) s

/-- A1ENC (R242). -/
def execA1enc (sec mi h dy flags : Byte) (s : State) : Host.Outcome State Fault Refusal :=
  .next (if a1ArgsOk (a1Of sec mi h dy flags)
    then finish (a1Enc (a1Of sec mi h dy flags)) s.begin
    else raise .argRange s.begin)

/-- A1DEC (R244). -/
def execA1dec (r0 r1 r2 r3 : Byte) (s : State) : Host.Outcome State Fault Refusal :=
  .next (finishA1 (a1Dec r0 r1 r2 r3) s.begin)

/-- A2ENC (R247). -/
def execA2enc (mi h dy flags : Byte) (s : State) : Host.Outcome State Fault Refusal :=
  .next (if a2ArgsOk (a2Of mi h dy flags)
    then finish (a2Enc (a2Of mi h dy flags)) s.begin
    else raise .argRange s.begin)

/-- A2DEC (R249). -/
def execA2dec (r0 r1 r2 : Byte) (s : State) : Host.Outcome State Fault Refusal :=
  .next (finishA2 (a2Dec r0 r1 r2) s.begin)

/-- GETA1 (R250). -/
def execGeta1 (s : State) : Host.Outcome State Fault Refusal :=
  .next (memRead 0x07 4 s.begin fun b s => finishA1 (a1Dec (b 0) (b 1) (b 2) (b 3)) s)

/-- SETA1 (R251). -/
def execSeta1 (sec mi h dy flags : Byte) (s : State) : Host.Outcome State Fault Refusal :=
  .next (if a1ArgsOk (a1Of sec mi h dy flags)
    then memWrite 0x07 (a1Enc (a1Of sec mi h dy flags)) s.begin fun s => finish [] s
    else raise .argRange s.begin)

/-- GETA2 (R252). -/
def execGeta2 (s : State) : Host.Outcome State Fault Refusal :=
  .next (memRead 0x0B 3 s.begin fun b s => finishA2 (a2Dec (b 0) (b 1) (b 2)) s)

/-- SETA2 (R253). -/
def execSeta2 (mi h dy flags : Byte) (s : State) : Host.Outcome State Fault Refusal :=
  .next (if a2ArgsOk (a2Of mi h dy flags)
    then memWrite 0x0B (a2Enc (a2Of mi h dy flags)) s.begin fun s => finish [] s
    else raise .argRange s.begin)

end Sys2Proof.Machine
end

