-- ==== Sys2Proof/Machine/BcdHour.lean ====
section
/-! DEFINITION. The meanings of BCDENC, BCDDEC, HRENC and HRDEC (41_bcd_hour.md). -/

namespace Sys2Proof.Machine

/-- BCDENC (R151). -/
def execBcdenc (a : Byte) (s : State) : Host.Outcome State Fault Refusal :=
  .next (finish [bcdEnc a.toNat] s.begin)

/-- BCDDEC (R153). -/
def execBcddec (a : Byte) (s : State) : Host.Outcome State Fault Refusal :=
  .next (finishChecked (bcdDigitsOk a 7) [toByte (bcdDec a)] s.begin)

/-- HRENC (R155). -/
def execHrenc (a : Byte) (s : State) : Host.Outcome State Fault Refusal :=
  .next (if hourArgOk a then finish [hourEnc a.toNat] s.begin else raise .argRange s.begin)

/-- HRDEC (R157). -/
def execHrdec (a : Byte) (s : State) : Host.Outcome State Fault Refusal :=
  .next (finishChecked (hourDec a).2 [toByte (hourDec a).1] s.begin)

end Sys2Proof.Machine
end

