-- ==== Sys2Proof/Machine/ControlStatus.lean ====
section
/-! DEFINITION. The meanings of GETVALID, GETRUN, SETRUN, SET32K, SQWMODE, SQWRATE, LATCHAF, FORCECONV, GETAGE and SETAGE
(45_control_status.md). -/

namespace Sys2Proof.Machine

/-- GETVALID (R300): only OSF is examined. -/
def execGetvalid (s : State) : Host.Outcome State Fault Refusal :=
  .next (memRead 0x0F 1 s.begin fun b s => finish [boolByte (!osf (b 0))] s)

/-- GETRUN (R302): only EOSC is examined. -/
def execGetrun (s : State) : Host.Outcome State Fault Refusal :=
  .next (memRead 0x0E 1 s.begin fun b s => finish [boolByte (!eosc (b 0))] s)

/-- SETRUN (R304): EOSC is 0 to run the oscillator. -/
def execSetrun (a : Byte) (s : State) : Host.Outcome State Fault Refusal :=
  .next (match boolArg a with
    | some run => rmw 0x0E maskEOSC (if run then 0x00#8 else maskEOSC) s.begin fun _ s => finish [] s
    | none => raise .argRange s.begin)

/-- SET32K (R306). -/
def execSet32k (a : Byte) (s : State) : Host.Outcome State Fault Refusal :=
  .next (match boolArg a with
    | some _ => rmw 0x0F maskEN32KHZ (a <<< 3) s.begin fun _ s => finish [] s
    | none => raise .argRange s.begin)

/-- SQWMODE (R308, R309). -/
def execSqwmode (a : Byte) (s : State) : Host.Outcome State Fault Refusal :=
  .next (match sqwModeOf a.toNat with
    | some m => rmw 0x0E modeClear (modeSet m) s.begin fun _ s => finish [] s
    | none => raise .argRange s.begin)

/-- SQWRATE (R310): the rate code replaces RS2:RS1. -/
def execSqwrate (a : Byte) (s : State) : Host.Outcome State Fault Refusal :=
  .next (if rateArgOk a
    then rmw 0x0E maskRS (a <<< 3) s.begin fun _ s => finish [] s
    else raise .argRange s.begin)

/-- LATCHAF (R312): the flags as read are reported and cleared. -/
def execLatchaf (s : State) : Host.Outcome State Fault Refusal :=
  .next (rmw 0x0F (maskA1F ||| maskA2F) 0x00#8 s.begin fun t s => finish [t &&& (maskA1F ||| maskA2F)] s)

/-- The poll of FORCECONV with this many poll reads left (R316, R318): it ends when CONV reads 0, and with CONV_TIMEOUT
when no read is left. -/
def pollConv : Nat → State → State
  | 0, s => raise .convTimeout s
  | left + 1, s =>
    memRead 0x0E 1 s fun b s => if conv (b 0) then pollConv left s.countPoll else finish [] s.countPoll

/-- FORCECONV (R316). -/
def execForceconv (a : Byte) (s : State) : Host.Outcome State Fault Refusal :=
  .next (match boolArg a with
    | some wait =>
      rmw 0x0E 0x00#8 maskCONV s.begin fun _ s =>
        if wait then pollConv s.convPollMax (s.holdK 0) else finish [] s
    | none => raise .argRange s.begin)

/-- GETAGE (R320). -/
def execGetage (s : State) : Host.Outcome State Fault Refusal :=
  .next (memRead 0x10 1 s.begin fun b s => finish [b 0] s)

/-- SETAGE (R322): a plain write, not a read-modify-write. -/
def execSetage (a : Byte) (s : State) : Host.Outcome State Fault Refusal :=
  .next (memWrite 0x10 [a] s.begin fun s => finish [] s)

end Sys2Proof.Machine
end

