-- ==== Sys2Proof/Machine/DateTime.lean ====
section
/-! DEFINITION. The meanings of DOW, DTENC, DTDEC, GETDT and SETDT (42_datetime.md). -/

namespace Sys2Proof.Machine

/-- The end of DTDEC and GETDT (R186, R187): the date-time's results with OK or CORRUPT_DATA. -/
def finishDt (x : DateTime × Bool) (s : State) : State := finishChecked x.2 (dtResults x.1) s

/-- DOW (R182). -/
def execDow (y : Year) (mo d : Byte) (s : State) : Host.Outcome State Fault Refusal :=
  .next (if dateArgsOk y.toNat mo.toNat d.toNat
    then finish [toByte (dayOfWeek y.toNat mo.toNat d.toNat)] s.begin
    else raise .argRange s.begin)

/-- DTENC (R184). -/
def execDtenc (y : Year) (mo d h mi sec : Byte) (s : State) : Host.Outcome State Fault Refusal :=
  .next (if dtArgsOk (dtOf y mo d h mi sec)
    then finish (dtEnc (dtOf y mo d h mi sec)) s.begin
    else raise .argRange s.begin)

/-- DTDEC (R186). -/
def execDtdec (r0 r1 r2 r3 r4 r5 r6 : Byte) (s : State) : Host.Outcome State Fault Refusal :=
  .next (finishDt (dtDec r0 r1 r2 r3 r4 r5 r6) s.begin)

/-- GETDT (R187). -/
def execGetdt (s : State) : Host.Outcome State Fault Refusal :=
  .next (memRead 0x00 7 s.begin fun b s => finishDt (dtDec (b 0) (b 1) (b 2) (b 3) (b 4) (b 5) (b 6)) s)

/-- SETDT (R188): the oscillator-stop flag is cleared by a read-modify-write (R281) before the time is written. -/
def execSetdt (y : Year) (mo d h mi sec : Byte) (s : State) : Host.Outcome State Fault Refusal :=
  .next (if dtArgsOk (dtOf y mo d h mi sec)
    then rmw 0x0F maskOSF 0x00#8 s.begin fun _ s =>
      memWrite 0x00 (dtEnc (dtOf y mo d h mi sec)) s fun s => finish [] s
    else raise .argRange s.begin)

end Sys2Proof.Machine
end

