-- ==== Sys2Proof/Machine/Temperature.lean ====
section
/-! DEFINITION. The meanings of TMPDEC and GETTMP (43_temperature.md). -/

namespace Sys2Proof.Machine

/-- TMPDEC (R221). -/
def execTmpdec (r0 r1 : Byte) (s : State) : Host.Outcome State Fault Refusal :=
  .next (finish (tempDec r0 r1) s.begin)

/-- GETTMP (R222). -/
def execGettmp (s : State) : Host.Outcome State Fault Refusal :=
  .next (memRead 0x11 2 s.begin fun b s => finish (tempDec (b 0) (b 1)) s)

end Sys2Proof.Machine
end

