-- ==== Sys2Proof/Machine/Dispatch.lean ====
section
/-! DEFINITION. The dispatch: one arm per operation of 30_encoding.md R105, one call of its meaning. -/

namespace Sys2Proof.Machine

/-- The operation `i`, run from its start to its response (60_exceptions.md R350). -/
def exec (i : Instr) (s : State) : Host.Outcome State Fault Refusal :=
  match i with
  -- 41_bcd_hour.md
  | .bcdenc a => Sys2Proof.Machine.execBcdenc a s
  | .bcddec a => Sys2Proof.Machine.execBcddec a s
  | .hrenc a => Sys2Proof.Machine.execHrenc a s
  | .hrdec a => Sys2Proof.Machine.execHrdec a s
  -- 42_datetime.md
  | .dow y mo d => Sys2Proof.Machine.execDow y mo d s
  | .dtenc y mo d h mi sec => Sys2Proof.Machine.execDtenc y mo d h mi sec s
  | .dtdec r0 r1 r2 r3 r4 r5 r6 => Sys2Proof.Machine.execDtdec r0 r1 r2 r3 r4 r5 r6 s
  -- 43_temperature.md
  | .tmpdec r0 r1 => Sys2Proof.Machine.execTmpdec r0 r1 s
  -- 44_alarm.md
  | .a1enc sec mi h dy f => Sys2Proof.Machine.execA1enc sec mi h dy f s
  | .a1dec r0 r1 r2 r3 => Sys2Proof.Machine.execA1dec r0 r1 r2 r3 s
  | .a2enc mi h dy f => Sys2Proof.Machine.execA2enc mi h dy f s
  | .a2dec r0 r1 r2 => Sys2Proof.Machine.execA2dec r0 r1 r2 s
  -- the device operations
  | .getdt => Sys2Proof.Machine.execGetdt s
  | .setdt y mo d h mi sec => Sys2Proof.Machine.execSetdt y mo d h mi sec s
  | .gettmp => Sys2Proof.Machine.execGettmp s
  | .geta1 => Sys2Proof.Machine.execGeta1 s
  | .seta1 sec mi h dy f => Sys2Proof.Machine.execSeta1 sec mi h dy f s
  | .geta2 => Sys2Proof.Machine.execGeta2 s
  | .seta2 mi h dy f => Sys2Proof.Machine.execSeta2 mi h dy f s
  -- 45_control_status.md
  | .getvalid => Sys2Proof.Machine.execGetvalid s
  | .getrun => Sys2Proof.Machine.execGetrun s
  | .setrun a => Sys2Proof.Machine.execSetrun a s
  | .set32k a => Sys2Proof.Machine.execSet32k a s
  | .sqwmode a => Sys2Proof.Machine.execSqwmode a s
  | .sqwrate a => Sys2Proof.Machine.execSqwrate a s
  | .latchaf => Sys2Proof.Machine.execLatchaf s
  | .forceconv a => Sys2Proof.Machine.execForceconv a s
  | .getage => Sys2Proof.Machine.execGetage s
  | .setage a => Sys2Proof.Machine.execSetage a s

end Sys2Proof.Machine
end

