-- ==== Sys2Proof/Machine/Step.lean ====
section
/-! DEFINITION. One step of the machine: one command of the host, from its acceptance to its response (60_exceptions.md
R350), or one step of waiting. -/

namespace Sys2Proof.Machine

/-- One step. A reset that is due is taken (R380). BUSY between steps means a transaction that never returned: the block stays
as it is until it is reset (R358; log 8). IDLE with no frame left, it waits (R381). Otherwise it accepts the next frame and
runs it; a frame that is no command ends with ILLEGAL_COMMAND (R345). -/
def step (s : State) : Host.Outcome State Fault Refusal :=
  if s.resetDue then .next s.blockReset.tick
  else
    match s.seq with
    | .busy _ => .next s.tick
    | .idle =>
      match s.host with
      | [] => .next s.tick
      | frame :: rest =>
        match decode frame with
        | .ok i => exec i (s.accept frame rest)
        | .error _ => .next (illegalCommand (s.accept frame rest))

/-- The frame of a table word is the next frame the host presents, and the block is IDLE with no reset asserted, so that
the very next step runs it (log 10). -/
def State.withFetchWord (s : State) (nbits w : Nat) : State :=
  { s with host := frameOfWord nbits w :: s.host, seq := .idle, resetIn := none }

end Sys2Proof.Machine
end

