-- ==== Sys2Proof/Machine/Assembler.lean ====
section
/-! DEFINITION. The assembler notation of 30_encoding.md R108: one command a line, its mnemonic and its operands separated
by commas, `;` before a comment; there are no pseudo-instructions (R109). Text is a list of characters. Log 17 says what R108
leaves open. -/

namespace Sys2Proof.Machine

/-- Why a line gives no frame (R108). -/
inductive AsmError
  | unknownMnemonic | badNumber | wrongOperandCount | operandOutOfRange
  deriving DecidableEq, Repr

/-- A blank of a line. -/
def isBlank (c : Char) : Bool := c == ' ' || c == '\t'

/-- Text without the blanks at its two ends. -/
def trim (l : List Char) : List Char := ((l.dropWhile isBlank).reverse.dropWhile isBlank).reverse

/-- The parts of a text between its commas. -/
def splitAtCommas : List Char → List (List Char)
  | [] => [[]]
  | c :: cs =>
    if c == ',' then [] :: splitAtCommas cs
    else
      match splitAtCommas cs with
      | [] => [[c]]
      | w :: ws => (c :: w) :: ws

/-- The value of a digit, decimal or hexadecimal. -/
def digitValue (c : Char) : Option Nat :=
  if '0' ≤ c ∧ c ≤ '9' then some (c.toNat - '0'.toNat)
  else if 'a' ≤ c ∧ c ≤ 'f' then some (c.toNat - 'a'.toNat + 10)
  else if 'A' ≤ c ∧ c ≤ 'F' then some (c.toNat - 'A'.toNat + 10)
  else none

/-- The value of a run of digits after a value `acc`. -/
def digitsFrom (base acc : Nat) : List Char → Option Nat
  | [] => some acc
  | c :: cs =>
    match digitValue c with
    | some d => if d < base then digitsFrom base (acc * base + d) cs else none
    | none => none

/-- The value of a run of at least one digit. -/
def digits (base : Nat) : List Char → Option Nat
  | [] => none
  | l => digitsFrom base 0 l

/-- A decimal, `0x` hexadecimal or `0b` binary number. -/
def natOf : List Char → Option Nat
  | '0' :: 'x' :: l => digits 16 l
  | '0' :: 'b' :: l => digits 2 l
  | l => digits 10 l

/-- A number with an optional minus sign. -/
def intOf : List Char → Option Int
  | '-' :: l => (natOf l).map fun n => -(n : Int)
  | l => (natOf l).map fun n => (n : Int)

/-- The byte of an operand 0..255. -/
def operandByte (v : Int) : Option Byte := if 0 ≤ v ∧ v ≤ 255 then some (BitVec.ofInt 8 v) else none

/-- The bytes of the operands after the year. -/
def operandBytes : List Int → Option (List Byte)
  | [] => some []
  | v :: vs =>
    match operandByte v, operandBytes vs with
    | some b, some bs => some (b :: bs)
    | _, _ => none

/-- A layout whose first operand is the year (R102). -/
def hasYear : Format → Bool
  | .fYMD => true
  | .fDT => true
  | .fN => false | .fB => false | .fB2 => false | .fB3 => false | .fB4 => false | .fB7 => false | .fAL1 => false
  | .fAL2 => false

/-- The operand bytes of a command's operands: a year 0..65535 as `ylo, yhi`, SETAGE's -128..127 as its two's-complement
byte, any other 0..255. -/
def assembleOperands (row : OpcodeRow) (vs : List Int) : Option (List Byte) :=
  if row.opcode == 0x20 then
    match vs with
    | [v] => if -128 ≤ v ∧ v ≤ 127 then some [BitVec.ofInt 8 v] else none
    | _ => none
  else if hasYear row.format then
    match vs with
    | y :: vs =>
      if 0 ≤ y ∧ y ≤ 65535 then
        (operandBytes vs).map fun bs => ylo (BitVec.ofInt 16 y) :: yhi (BitVec.ofInt 16 y) :: bs
      else none
    | [] => none
  else operandBytes vs

/-- How many operands a line names: the year is one (R108). -/
def asmOperandCount (row : OpcodeRow) : Nat :=
  if hasYear row.format then row.format.operandBytes - 1 else row.format.operandBytes

/-- The frame of a mnemonic with its operand values. -/
def assemble (mnemonic : List Char) (vs : List Int) : Except AsmError (List Byte) :=
  match opcodeMap.find? fun r => r.mnemonic.toList == mnemonic with
  | none => .error .unknownMnemonic
  | some row =>
    if vs.length = asmOperandCount row then
      match assembleOperands row vs with
      | some bs => .ok (BitVec.ofNat 8 row.opcode :: bs)
      | none => .error .operandOutOfRange
    else .error .wrongOperandCount

/-- The operand values a line of this operation names (R108): every byte as 0..255, the year as one value. -/
def asmOperands : Instr → List Int
  | .dow y mo d => [y.toNat, mo.toNat, d.toNat]
  | .dtenc y mo d h mi s => [y.toNat, mo.toNat, d.toNat, h.toNat, mi.toNat, s.toNat]
  | .setdt y mo d h mi s => [y.toNat, mo.toNat, d.toNat, h.toNat, mi.toNat, s.toNat]
  | .setage a => [sext8 a]
  | .bcdenc a | .bcddec a | .hrenc a | .hrdec a | .setrun a | .set32k a | .sqwmode a | .sqwrate a | .forceconv a =>
    [a.toNat]
  | .dtdec r0 r1 r2 r3 r4 r5 r6 => [r0.toNat, r1.toNat, r2.toNat, r3.toNat, r4.toNat, r5.toNat, r6.toNat]
  | .tmpdec r0 r1 => [r0.toNat, r1.toNat]
  | .a1enc s mi h dy f | .seta1 s mi h dy f => [s.toNat, mi.toNat, h.toNat, dy.toNat, f.toNat]
  | .a1dec r0 r1 r2 r3 => [r0.toNat, r1.toNat, r2.toNat, r3.toNat]
  | .a2enc mi h dy f | .seta2 mi h dy f => [mi.toNat, h.toNat, dy.toNat, f.toNat]
  | .a2dec r0 r1 r2 => [r0.toNat, r1.toNat, r2.toNat]
  | .getdt | .gettmp | .geta1 | .geta2 | .getvalid | .getrun | .latchaf | .getage => []

/-- The numbers of a line's operands. -/
def numbersOf : List (List Char) → Option (List Int)
  | [] => some []
  | w :: ws =>
    match intOf (trim w), numbersOf ws with
    | some v, some vs => some (v :: vs)
    | _, _ => none

/-- The frame of one line; none for a line that holds no command. -/
def assembleLine (line : List Char) : Except AsmError (Option (List Byte)) :=
  let code := trim (line.takeWhile fun c => c != ';')
  match code with
  | [] => .ok none
  | _ =>
    let rest := trim (code.dropWhile fun c => !isBlank c)
    match numbersOf (if rest.isEmpty then [] else splitAtCommas rest) with
    | none => .error .badNumber
    | some vs =>
      match assemble (code.takeWhile fun c => !isBlank c) vs with
      | .ok frame => .ok (some frame)
      | .error e => .error e

/-- The frames of a program, in order: the run a host presents (60_exceptions.md R358). -/
def assembleProgram : List (List Char) → Except AsmError (List (List Byte))
  | [] => .ok []
  | l :: ls =>
    match assembleLine l, assembleProgram ls with
    | .ok (some f), .ok fs => .ok (f :: fs)
    | .ok none, .ok fs => .ok fs
    | .error e, _ => .error e
    | .ok _, .error e => .error e

end Sys2Proof.Machine
end

