-- ==== Sys2Proof/Safety.lean ====
section
/-! DEFINITION. The terms the statements use: the invariant of the machine, what completing an operation means, and the
spec's own lists over all operations (the transactions of 20_memory.md R75, the registers written by 10_state.md R36, the
owned bits of 45_control_status.md R281). None of them is used by the machine. -/

namespace Sys2Proof.Machine

/-! ### The transactions of an operation -/

/-- A transaction as 20_memory.md R75 lists it: its kind, start address and length. -/
inductive Transaction
  | read (addr n : Nat)
  | write (addr n : Nat)
  deriving DecidableEq, Repr

/-- The transaction of an event. -/
def Event.transaction : Event → Transaction
  | .read addr n _ _ => .read addr n
  | .write addr v _ => .write addr v.length

/-- How the transaction of an event ended. -/
def Event.reply : Event → Reply
  | .read _ _ r _ => r
  | .write _ _ r => r

/-- The list of R75 for an operation, with every poll read a blocking FORCECONV may make. -/
def transactionsOf (convPollMax : Nat) : Instr → List Transaction
  | .bcdenc _ | .bcddec _ | .hrenc _ | .hrdec _ | .dow _ _ _ | .dtenc _ _ _ _ _ _ | .dtdec _ _ _ _ _ _ _ | .tmpdec _ _
  | .a1enc _ _ _ _ _ | .a1dec _ _ _ _ | .a2enc _ _ _ _ | .a2dec _ _ _ => []
  | .getdt => [.read 0x00 7]
  | .setdt _ _ _ _ _ _ => [.read 0x0F 1, .write 0x0F 1, .write 0x00 7]
  | .gettmp => [.read 0x11 2]
  | .geta1 => [.read 0x07 4]
  | .seta1 _ _ _ _ _ => [.write 0x07 4]
  | .geta2 => [.read 0x0B 3]
  | .seta2 _ _ _ _ => [.write 0x0B 3]
  | .getvalid => [.read 0x0F 1]
  | .getrun => [.read 0x0E 1]
  | .setrun _ => [.read 0x0E 1, .write 0x0E 1]
  | .set32k _ => [.read 0x0F 1, .write 0x0F 1]
  | .sqwmode _ => [.read 0x0E 1, .write 0x0E 1]
  | .sqwrate _ => [.read 0x0E 1, .write 0x0E 1]
  | .latchaf => [.read 0x0F 1, .write 0x0F 1]
  | .forceconv a =>
    [.read 0x0E 1, .write 0x0E 1] ++ (if a = 1 then List.replicate convPollMax (.read 0x0E 1) else [])
  | .getage => [.read 0x10 1]
  | .setage _ => [.write 0x10 1]

/-- A transaction of 1 to 7 bytes inside the register map (R70). -/
def Transaction.inMap : Transaction → Bool
  | .read addr n => decide (1 ≤ n ∧ n ≤ 7 ∧ addr + n - 1 ≤ 0x12)
  | .write addr n => decide (1 ≤ n ∧ n ≤ 7 ∧ addr + n - 1 ≤ 0x12)

/-- The device registers an operation writes: the "write" entries of the table of R36. -/
def writtenRegisters : Instr → List Nat
  | .bcdenc _ | .bcddec _ | .hrenc _ | .hrdec _ | .dow _ _ _ | .dtenc _ _ _ _ _ _ | .dtdec _ _ _ _ _ _ _ | .tmpdec _ _
  | .a1enc _ _ _ _ _ | .a1dec _ _ _ _ | .a2enc _ _ _ _ | .a2dec _ _ _ 
  | .getdt | .gettmp | .geta1 | .geta2 | .getvalid | .getrun | .getage => []
  | .setdt _ _ _ _ _ _ => [0x00, 0x01, 0x02, 0x03, 0x04, 0x05, 0x06, 0x0F]
  | .seta1 _ _ _ _ _ => [0x07, 0x08, 0x09, 0x0A]
  | .seta2 _ _ _ _ => [0x0B, 0x0C, 0x0D]
  | .setrun _ => [0x0E]
  | .set32k _ => [0x0F]
  | .sqwmode _ => [0x0E]
  | .sqwrate _ => [0x0E]
  | .latchaf => [0x0F]
  | .forceconv _ => [0x0E]
  | .setage _ => [0x10]

/-- A pure operation issues no transaction (opcodes 0x01-0x0C, R105). -/
def isPure (i : Instr) : Bool := decide (i.opcode ≤ 0x0C)

/-- The register and the bits a setter owns (R281): its register, and the only bits its write may change. -/
def ownedBits : Instr → Option (Nat × Byte)
  | .setdt _ _ _ _ _ _ => some (0x0F, 0x80#8)
  | .setrun _ => some (0x0E, 0x80#8)
  | .set32k _ => some (0x0F, 0x08#8)
  | .sqwmode _ => some (0x0E, 0x47#8)
  | .sqwrate _ => some (0x0E, 0x18#8)
  | .latchaf => some (0x0F, 0x03#8)
  | .forceconv _ => some (0x0E, 0x20#8)
  | .bcdenc _ | .bcddec _ | .hrenc _ | .hrdec _ | .dow _ _ _ | .dtenc _ _ _ _ _ _ | .dtdec _ _ _ _ _ _ _ | .tmpdec _ _
  | .a1enc _ _ _ _ _ | .a1dec _ _ _ _ | .a2enc _ _ _ _ | .a2dec _ _ _ 
  | .getdt | .gettmp | .geta1 | .seta1 _ _ _ _ _ | .geta2 | .seta2 _ _ _ _ | .getvalid | .getrun | .getage | .setage _ =>
    none

/-! ### What completing means -/

/-- What no operation changes when no reset is asserted: the command, the host's coming frames, the device bound, the
parameter. -/
structure Kept (s t : State) : Prop where
  command : t.command = s.command
  host : t.host = s.host
  transport : t.transport = s.transport
  convPollMax : t.convPollMax = s.convPollMax
  resetIn : t.resetIn = none

/-- The operation runs from `s` to its response: it ends IDLE with this status and these results, having issued exactly
these transactions. -/
def Completes (i : Instr) (s : State) (st : Status) (results : List Byte) (issued : List Event) : Prop :=
  ∃ t, exec i s = .next t ∧ t.seq = .idle ∧ t.response = some { status := st, results := results } ∧
    t.events = s.events ++ issued ∧ Kept s t

/-- The chip changes no register of its own: SIM, and no explicit change (R73). -/
structure State.Quiet (s : State) : Prop where
  sim : s.transport = .sim
  chip : ∀ cells ∈ s.chip, cells = []

/-- The chip changes no register of its own at the next `n` actions. -/
def State.StillFor (n : Nat) (s : State) : Prop := ∀ j, j < n → s.chipAt j = []

/-- SIM answers a read from `addr` of up to `n` bytes with the contents of its registers, byte `i` that of `addr + i` (R70, R71,
R73). -/
def ReadsContents (s : State) (addr n : Nat) : Prop :=
  s.Quiet → s.script = [] → s.dev.wf = true → ∀ i, i < n → s.dev.read? (addr + i) = some (s.dataAt addr i)

/-- How many bytes of the write that comes after `j` others land when it is not acknowledged: none where SIM is made to NACK
it, any prefix the answer gives otherwise (R84; log 14). -/
def landedOf (s : State) (j : Nat) : Nat :=
  match s.transport, (s.answerAt j).reply with
  | .sim, .nack => 0
  | .sim, .ack | .sim, .silent | .oracle, .ack | .oracle, .nack | .oracle, .silent => (s.answerAt j).landed

/-- The byte a transaction stores in the register at `a` (R70, R71, R84): an acknowledged write all of its bytes, any other
write its first `landed`, `v[k]` at `addr + k`. -/
def Event.stores (landed : Nat) (e : Event) (a : Nat) : Option Byte :=
  match e with
  | .read _ _ _ _ => none
  | .write addr v r => if addr ≤ a ∧ (r = .ack ∨ a - addr < landed) then v[a - addr]? else none

/-- What the register at `a` holds after these transactions: what the last of them that stores to it stored, or what it held
before. -/
def heldAfter (landed : Nat) (before : Memory) (issued : List Event) (a : Nat) : Option Byte :=
  (issued.reverse.findSome? fun e => e.stores landed a).or (before.read? a)

/-- The operation completes and issues no transaction: the device registers are as the chip's own change at the response
leaves them, which is as they were on a device that changes nothing of its own, and the device's coming answers are the
same. -/
def CompletesAlone (i : Instr) (s : State) (st : Status) (results : List Byte) : Prop :=
  ∃ t, exec i s = .next t ∧ t.seq = .idle ∧ t.response = some { status := st, results := results } ∧
    t.events = s.events ∧ t.dev = s.dev.writeCells s.chipNow ∧ (s.Quiet → t.dev = s.dev) ∧
    t.script = s.script ∧ t.draws = s.draws ∧ Kept s t

/-- An operation of one read: the status and results when it is acknowledged, BUS_ERROR when it is not (R343), and on SIM the
bytes read are the contents of the registers. -/
def ReadCases (i : Instr) (s : State) (addr n : Nat) (st : Status) (results : List Byte) : Prop :=
  ((s.answerAt 0).reply = .ack → Completes i s st results [.read addr n .ack (s.dataBytes addr n)]) ∧
  ((s.answerAt 0).reply = .nack → Completes i s .busError [] [.read addr n .nack []]) ∧
  ReadsContents s addr n

/-- An operation of one write: OK when it is acknowledged, BUS_ERROR when it is not. -/
def WriteCases (i : Instr) (s : State) (addr : Nat) (v : List Byte) : Prop :=
  ((s.answerAt 0).reply = .ack → Completes i s .ok [] [.write addr v .ack]) ∧
  ((s.answerAt 0).reply = .nack → Completes i s .busError [] [.write addr v .nack])

/-- An operation of one read-modify-write of `addr` that stores `w`: OK with the results when both transactions are
acknowledged, BUS_ERROR at the first that is not, after which none is issued; on SIM the byte read is the register's content. -/
def RmwCases (i : Instr) (s : State) (addr : Nat) (w : Byte) (results : List Byte) : Prop :=
  ((s.answerAt 0).reply = .nack → Completes i s .busError [] [.read addr 1 .nack []]) ∧
  ((s.answerAt 0).reply = .ack → (s.answerAt 1).reply = .nack →
    Completes i s .busError [] [.read addr 1 .ack [s.dataAt addr 0], .write addr [w] .nack]) ∧
  ((s.answerAt 0).reply = .ack → (s.answerAt 1).reply = .ack →
    Completes i s .ok results [.read addr 1 .ack [s.dataAt addr 0], .write addr [w] .ack]) ∧
  ReadsContents s addr 1

/-- The operation completes alone with results whose values are these numbers. -/
def CompletesWith (i : Instr) (s : State) (st : Status) (values : List Nat) : Prop :=
  ∃ results : List Byte, results.map BitVec.toNat = values ∧ CompletesAlone i s st results

/-- An operation of one read whose results' values are these numbers. -/
def ReadCasesWith (i : Instr) (s : State) (addr n : Nat) (st : Status) (values : List Nat) : Prop :=
  ∃ results : List Byte, results.map BitVec.toNat = values ∧ ReadCases i s addr n st results

/-- The status a run of poll reads ends a blocking FORCECONV with, when this many poll reads were left before it (R316):
CONV_TIMEOUT when none is left, BUS_ERROR at a read that is not acknowledged, OK at a read that finds CONV 0. None of the
three when the list is not such a run, whole and with nothing after its end. -/
def pollStatus : Nat → List Event → Option Status
  | 0, [] => some .convTimeout
  | 0, _ :: _ => none
  | _ + 1, [] => none
  | left + 1, e :: es =>
    match e with
    | .read 0x0E 1 .ack [d] =>
      if d.toNat / 32 % 2 = 1 then pollStatus left es else if es = [] then some .ok else none
    | .read 0x0E 1 .nack [] => if es = [] then some .busError else none
    | _ => none

/-! ### The invariant -/

/-- A response that belongs to its command (R101, R341): m results when the status delivers them, else none; and
ILLEGAL_COMMAND exactly for a frame that is no command. -/
def responseFits (command : List Byte) (r : Response) : Bool :=
  match decode command with
  | .ok i => r.status != .illegalCommand && r.results.length == (if r.status.delivers then i.resultBytes else 0)
  | .error _ => r == { status := .illegalCommand, results := [] }

/-- The invariant of the machine: the device memory keeps its form (R36), every transaction ever issued lies in the register
map (R70, R74), a response belongs to the command and is there only when IDLE (R350), what BUSY holds keeps its bounds (R33,
R34, R318), and CONV_POLL_MAX is at least 1 (00_scope.md R6). -/
structure State.Inv (s : State) : Prop where
  dev : s.dev.wf = true
  events : ∀ e ∈ s.events, e.transaction.inMap = true
  response : ∀ r, s.response = some r → s.seq = .idle ∧ responseFits s.command r = true
  busy : ∀ b, s.seq = .busy b →
    b.phase ≤ 2 + s.convPollMax ∧ b.buf.length ≤ 7 ∧ ∀ k, b.k = some k → k ≤ s.convPollMax
  convPollMax : 1 ≤ s.convPollMax

end Sys2Proof.Machine

/-! ### The device bytes read as numbers

The layouts of 30_encoding.md Part B and the codec functions of 41_bcd_hour.md to 44_alarm.md, in natural-number arithmetic
on the values of the bytes, written apart from the machine's functions on bytes so that the statements compare the two. -/

namespace Sys2Proof.Reading

/-- The mnemonic of each operation as 30_encoding.md R105 spells it. -/
def mnemonic : Instr → String
  | .bcdenc _ => "BCDENC"
  | .bcddec _ => "BCDDEC"
  | .hrenc _ => "HRENC"
  | .hrdec _ => "HRDEC"
  | .dow _ _ _ => "DOW"
  | .dtenc _ _ _ _ _ _ => "DTENC"
  | .dtdec _ _ _ _ _ _ _ => "DTDEC"
  | .tmpdec _ _ => "TMPDEC"
  | .a1enc _ _ _ _ _ => "A1ENC"
  | .a1dec _ _ _ _ => "A1DEC"
  | .a2enc _ _ _ _ => "A2ENC"
  | .a2dec _ _ _ => "A2DEC"
  | .getdt => "GETDT"
  | .setdt _ _ _ _ _ _ => "SETDT"
  | .gettmp => "GETTMP"
  | .geta1 => "GETA1"
  | .seta1 _ _ _ _ _ => "SETA1"
  | .geta2 => "GETA2"
  | .seta2 _ _ _ _ => "SETA2"
  | .getvalid => "GETVALID"
  | .getrun => "GETRUN"
  | .setrun _ => "SETRUN"
  | .set32k _ => "SET32K"
  | .sqwmode _ => "SQWMODE"
  | .sqwrate _ => "SQWRATE"
  | .latchaf => "LATCHAF"
  | .forceconv _ => "FORCECONV"
  | .getage => "GETAGE"
  | .setage _ => "SETAGE"

/-- The BCD byte of a value (R150). -/
def toBcd (v : Nat) : Nat := 16 * (v / 10 % 16) + v % 10

/-- The value of a BCD byte or field (R152). -/
def bcd (b : Nat) : Nat := 10 * (b / 16) + b % 16

/-- Both digits are at most 9 (R10). -/
abbrev digitsOk (b : Nat) : Prop := b / 16 ≤ 9 ∧ b % 16 ≤ 9

/-- The hour of an hour byte (R156). -/
def hour (b : Nat) : Nat := if b / 64 % 2 = 1 then bcd (b % 32) + 12 * (b / 32 % 2) else bcd b

/-- The checked digits of an hour byte (R156). -/
abbrev hourOk (b : Nat) : Prop := if b / 64 % 2 = 1 then b % 16 ≤ 9 else digitsOk b

/-- The day of the week, 0 = Sunday (R180). -/
def weekday (y m d : Nat) : Nat :=
  let y' := y - (if m < 3 then 1 else 0)
  (y' + y' / 4 - y' / 100 + y' / 400 + [0, 3, 2, 5, 0, 3, 5, 1, 4, 6, 2, 4].getD (m - 1) 0 + d) % 7

/-- A leap year of the Gregorian calendar. -/
def leap (y : Nat) : Bool := y % 4 = 0 && (y % 100 ≠ 0 || y % 400 = 0)

/-- The days of a month of the Gregorian calendar. -/
def daysIn (y m : Nat) : Nat :=
  if m = 2 then (if leap y then 29 else 28) else if m = 4 ∨ m = 6 ∨ m = 9 ∨ m = 11 then 30 else 31

/-- The date ranges of R181. -/
abbrev dateOk (y mo d : Nat) : Prop := 2000 ≤ y ∧ y ≤ 2199 ∧ 1 ≤ mo ∧ mo ≤ 12 ∧ 1 ≤ d ∧ d ≤ 31

/-- The date-time ranges of R181. -/
abbrev dtOk (y mo d h mi s : Nat) : Prop := dateOk y mo d ∧ h ≤ 23 ∧ mi ≤ 59 ∧ s ≤ 59

/-- The bytes of 0x00..0x06 of a date-time (R183). -/
def dtBytes (y mo d h mi s : Nat) : List Nat :=
  [toBcd s, toBcd mi, toBcd h, toBcd (weekday y mo d), toBcd d, toBcd mo, toBcd ((y - 2000) % 100)]

/-- The year of the month and year bytes (R185). -/
def year (r5 r6 : Nat) : Nat := 2000 + bcd r6 + 100 * (r5 / 128)

/-- The results P_DT of the bytes of 0x00..0x06 but 0x03 (R185, R186). -/
def dtFields (r0 r1 r2 r4 r5 r6 : Nat) : List Nat :=
  [year r5 r6 % 256, year r5 r6 / 256, bcd (r5 % 128), bcd r4, hour r2, bcd r1, bcd (r0 % 128)]

/-- The checked digits of the bytes of 0x00..0x06 (R185). -/
abbrev dtFieldsOk (r0 r1 r2 r4 r5 r6 : Nat) : Prop :=
  r0 % 16 ≤ 9 ∧ digitsOk r1 ∧ hourOk r2 ∧ digitsOk r4 ∧ r5 % 16 ≤ 9 ∧ digitsOk r6

/-- The ranges of an alarm's time and day-of (R240, R245); alarm two has no second. -/
abbrev alarmOk (s mi h dy : Nat) : Prop := s ≤ 59 ∧ mi ≤ 59 ∧ h ≤ 23 ∧ 1 ≤ dy ∧ dy ≤ 31

/-- The bytes of 0x07..0x0A, from the flags operand's bits 4:0 (R241). -/
def a1Bytes (s mi h dy f : Nat) : List Nat :=
  [toBcd s + 128 * (f % 2), toBcd mi + 128 * (f / 2 % 2), toBcd h + 128 * (f / 4 % 2), toBcd dy + 64 * (f / 8 % 4)]

/-- The results P_AL1 of the bytes of 0x07..0x0A (R243). -/
def a1Fields (r0 r1 r2 r3 : Nat) : List Nat :=
  [bcd (r0 % 128), bcd (r1 % 128), hour (r2 % 128), bcd (r3 % 64),
   r0 / 128 + 2 * (r1 / 128) + 4 * (r2 / 128) + 8 * (r3 / 64)]

/-- The checked digits of the bytes of 0x07..0x0A (R243). -/
abbrev a1FieldsOk (r0 r1 r2 r3 : Nat) : Prop := r0 % 16 ≤ 9 ∧ r1 % 16 ≤ 9 ∧ hourOk (r2 % 128) ∧ r3 % 16 ≤ 9

/-- The bytes of 0x0B..0x0D, from the flags operand's bits 3:0 (R246). -/
def a2Bytes (mi h dy f : Nat) : List Nat :=
  [toBcd mi + 128 * (f % 2), toBcd h + 128 * (f / 2 % 2), toBcd dy + 64 * (f / 4 % 4)]

/-- The results P_AL2 of the bytes of 0x0B..0x0D (R248). -/
def a2Fields (r0 r1 r2 : Nat) : List Nat :=
  [bcd (r0 % 128), hour (r1 % 128), bcd (r2 % 64), r0 / 128 + 2 * (r1 / 128) + 4 * (r2 / 64)]

/-- The checked digits of the bytes of 0x0B..0x0D (R248). -/
abbrev a2FieldsOk (r0 r1 r2 : Nat) : Prop := r0 % 16 ≤ 9 ∧ hourOk (r1 % 128) ∧ r2 % 16 ≤ 9

end Sys2Proof.Reading
end

