-- ==== Sys2Proof/Certificates/Slice0/Obligations.lean ====
section
/-! DEFINITION. The statements for the provers. OBLIGATIONS.json says of each which rules of spec/ it formalises. A premise
`s.resetIn = none` says that no reset is asserted while the operation runs (log 9); what a reset does is stated on its own.
The `decode` clause of an operation's statement is its opcode and its operands' places in the frame (30_encoding.md R102,
R105). The weekday (`Reading.weekday`) is the formula of 42_datetime.md R180, which that rule supplies "[from general
knowledge, not in source]". -/

open Sys2Proof Sys2Proof.Machine

/-! ### Frames -/

/-- Frames written out from 30_encoding.md R105 and R102, one of every family, decode to their operations. -/
def Obligations.SampleFramesDecode : Prop :=
  decode [0x01, 0x2D] = .ok (.bcdenc 45) ∧
  decode [0x11, 0xE8, 0x07, 0x01, 0x02, 0x0D, 0x2D, 0x1E] = .ok (.setdt 2024 1 2 13 45 30) ∧
  decode [0x08, 0x19, 0x40] = .ok (.tmpdec 0x19 0x40) ∧
  decode [0x14, 0x1E, 0x0F, 0x06, 0x01, 0x1F] = .ok (.seta1 30 15 6 1 0x1F) ∧
  decode [0x16, 0x00, 0x07, 0x05, 0x0B] = .ok (.seta2 0 7 5 0x0B) ∧
  decode [0x1E, 0x01] = .ok (.forceconv 1) ∧
  decode [0x20, 0xFB] = .ok (.setage 0xFB)

/-- The decoder gives every operation back from its encoding, with every operand at every value. -/
def Obligations.DecodeInvertsEncode : Prop :=
  ∀ i : Instr, decode (encode i) = .ok i

/-- Every frame the decoder accepts is the encoding of the operation it gives: each operation has one frame. -/
def Obligations.AcceptedFrameIsEncoding : Prop :=
  ∀ (frame : List Byte) (i : Instr), decode frame = .ok i → frame = encode i

/-- R106, R107: an unassigned opcode is rejected; an assigned one is accepted exactly with the n operand bytes of its row. -/
def Obligations.FrameRejectedExactlyWhenUnassignedOrWrongLength : Prop :=
  ∀ (opc : Byte) (operands : List Byte),
    ((opc.toNat = 0x00 ∨ (0x0D ≤ opc.toNat ∧ opc.toNat ≤ 0x0F) ∨ 0x21 ≤ opc.toNat) →
      decode (opc :: operands) = .error (.unassignedOpcode opc)) ∧
    (¬(opc.toNat = 0x00 ∨ (0x0D ≤ opc.toNat ∧ opc.toNat ≤ 0x0F) ∨ 0x21 ≤ opc.toNat) →
      ∃ row ∈ opcodeMap, row.opcode = opc.toNat ∧
        (operands.length = row.format.operandBytes → ∃ i, decode (opc :: operands) = .ok i) ∧
        (operands.length ≠ row.format.operandBytes →
          decode (opc :: operands) = .error (.wrongLength opc (1 + operands.length))))

/-- R345: a frame whose opcode is unassigned or whose length is not `1 + n` ends with ILLEGAL_COMMAND, with no results, no
transaction and no other effect. Two clauses are the model's choice, not the rule's: that `command` holds the whole frame, the
bytes past A6 of one of more than 8 bytes too (log 20), and that the device registers are as the chip's own changes at the two
actions, the acceptance and the response, leave them (logs 9, 13), which is as they were on a device that changes nothing of
its own. -/
def Obligations.IllegalCommandHasNoOtherEffect : Prop :=
  ∀ (s : State) (opc : Byte) (operands : List Byte) (rest : List (List Byte)),
    s.seq = .idle → s.resetIn = none → s.host = (opc :: operands) :: rest →
    ((opc.toNat = 0x00 ∨ (0x0D ≤ opc.toNat ∧ opc.toNat ≤ 0x0F) ∨ 0x21 ≤ opc.toNat) ∨
      ∃ row ∈ opcodeMap, row.opcode = opc.toNat ∧ operands.length ≠ row.format.operandBytes) →
    step s = .next { s with
      command := opc :: operands
      response := some { status := .illegalCommand, results := [] }
      host := rest
      dev := s.tick.tick.dev
      chip := s.chip.tail.tail
      moment := s.moment + 2 } ∧
    (s.Quiet → s.tick.tick.dev = s.dev)

/-- A step of an IDLE block with no reset due accepts the next frame and runs the operation it decodes to: the frame is in
OPC, A0, .., the last response is gone, and before the operation nothing else is changed but by the passing of one action
(logs 9, 13): the chip's own change, which is none on a device that changes nothing of its own, and the count to a reset. With
no frame left the block waits in IDLE (R381): the step is the passing of one action and nothing else, so the response stays
readable (R350). -/
def Obligations.StepRunsTheDecodedCommand : Prop :=
  (∀ (s : State) (frame : List Byte) (rest : List (List Byte)) (i : Instr),
    s.seq = .idle → s.resetIn ≠ some 0 → s.host = frame :: rest → decode frame = .ok i →
    step s = exec i { s with
      command := frame
      response := none
      host := rest
      dev := s.dev.writeCells s.chipNow
      chip := s.chip.tail
      moment := s.moment + 1
      resetIn := s.resetIn.map fun n => n - 1 } ∧
    (s.Quiet → s.dev.writeCells s.chipNow = s.dev)) ∧
  (∀ s : State, s.seq = .idle → s.resetIn ≠ some 0 → s.host = [] →
    step s = .next { s with
      dev := s.dev.writeCells s.chipNow
      chip := s.chip.tail
      moment := s.moment + 1
      resetIn := s.resetIn.map fun n => n - 1 } ∧
    (s.Quiet → s.dev.writeCells s.chipNow = s.dev))

/-- R108: the mnemonic of an operation, as R105 spells it (`Reading.mnemonic`), with its operand values, the year as one
operand and SETAGE's as a signed value, assembles to its frame. -/
def Obligations.AssemblerGivesTheEncoding : Prop :=
  ∀ i : Instr, assemble (Reading.mnemonic i).toList (asmOperands i) = .ok (encode i)

/-! ### BCD and hour -/

/-- R150, R151: BCDENC is OK for every byte; the tens count keeps 4 bits. -/
def Obligations.BcdencPacksDigits : Prop :=
  ∀ (a : Byte) (s : State), s.resetIn = none →
    decode [0x01, a] = .ok (.bcdenc a) ∧
    CompletesWith (.bcdenc a) s .ok [16 * (a.toNat / 10 % 16) + a.toNat % 10]

/-- R152, R153: BCDDEC gives ten times the high nibble plus the low nibble in both statuses. -/
def Obligations.BcddecValueAndStatus : Prop :=
  ∀ (a : Byte) (s : State), s.resetIn = none →
    decode [0x02, a] = .ok (.bcddec a) ∧
    CompletesWith (.bcddec a) s (if a.toNat / 16 > 9 ∨ a.toNat % 16 > 9 then .corruptData else .ok)
      [10 * (a.toNat / 16) + a.toNat % 16]

/-- R154, R155: HRENC is 24-hour BCD for 0..23, ARG_RANGE above. -/
def Obligations.HrencChecksThenEncodes : Prop :=
  ∀ (a : Byte) (s : State), s.resetIn = none →
    decode [0x03, a] = .ok (.hrenc a) ∧
    (a.toNat ≤ 23 → CompletesWith (.hrenc a) s .ok [16 * (a.toNat / 10) + a.toNat % 10]) ∧
    (a.toNat > 23 → CompletesWith (.hrenc a) s .argRange [])

/-- R156, R157: HRDEC in 12-hour mode (bit 6 set) reads bits 4:0 and adds 12 for PM, ignoring bit 7; in 24-hour mode it
reads the whole byte. -/
def Obligations.HrdecReadsTheHourLiterally : Prop :=
  ∀ (a : Byte) (s : State), s.resetIn = none →
    decode [0x04, a] = .ok (.hrdec a) ∧
    (a.toNat / 64 % 2 = 1 →
      CompletesWith (.hrdec a) s (if a.toNat % 16 ≤ 9 then .ok else .corruptData)
        [10 * (a.toNat / 16 % 2) + a.toNat % 16 + 12 * (a.toNat / 32 % 2)]) ∧
    (a.toNat / 64 % 2 = 0 →
      CompletesWith (.hrdec a) s (if a.toNat / 16 ≤ 9 ∧ a.toNat % 16 ≤ 9 then .ok else .corruptData)
        [10 * (a.toNat / 16) + a.toNat % 16])

/-- The laws of R159: BCD decodes back 0..99 with valid digits, hours 0..23 decode back, and the first law fails above. -/
def Obligations.BcdAndHourRoundTrip : Prop :=
  (∀ v : Nat, v ≤ 99 → bcdDec (bcdEnc v) = v ∧ bcdDigitsOk (bcdEnc v) 7 = true) ∧
  (∀ h : Nat, h ≤ 23 → hourDec (hourEnc h) = (h, true)) ∧
  (∀ v : Nat, 100 ≤ v → v ≤ 255 → ¬(bcdDec (bcdEnc v) = v ∧ bcdDigitsOk (bcdEnc v) 7 = true))

/-! ### Date-time -/

/-- R182: DOW gives the weekday of R180 for a date in range, ARG_RANGE otherwise. -/
def Obligations.DowGivesTheWeekday : Prop :=
  ∀ (y : Year) (mo d : Byte) (s : State), s.resetIn = none →
    decode [0x05, BitVec.ofNat 8 (y.toNat % 256), BitVec.ofNat 8 (y.toNat / 256), mo, d] = .ok (.dow y mo d) ∧
    (Reading.dateOk y.toNat mo.toNat d.toNat →
      CompletesWith (.dow y mo d) s .ok [Reading.weekday y.toNat mo.toNat d.toNat]) ∧
    (¬Reading.dateOk y.toNat mo.toNat d.toNat → CompletesWith (.dow y mo d) s .argRange [])

/-- The weekday the machine computes is the Gregorian one: 2024-01-01 is a Monday, the next day of a month is the next
weekday, past its end too, and a month and a year hand on to the next. -/
def Obligations.WeekdayFollowsTheCalendar : Prop :=
  dayOfWeek 2024 1 1 = 1 ∧
  (∀ y m d : Nat, dayOfWeek y m (d + 1) = (dayOfWeek y m d + 1) % 7) ∧
  (∀ y m : Nat, 2000 ≤ y → 1 ≤ m → m ≤ 11 → dayOfWeek y (m + 1) 1 = (dayOfWeek y m 1 + Reading.daysIn y m) % 7) ∧
  (∀ y : Nat, 2000 ≤ y → dayOfWeek (y + 1) 1 1 = (dayOfWeek y 12 1 + 31) % 7)

/-- R184: DTENC gives the seven register bytes of R183 for fields in range, ARG_RANGE otherwise. -/
def Obligations.DtencGivesTheRegisterBytes : Prop :=
  ∀ (y : Year) (mo d h mi sec : Byte) (s : State), s.resetIn = none →
    decode [0x06, BitVec.ofNat 8 (y.toNat % 256), BitVec.ofNat 8 (y.toNat / 256), mo, d, h, mi, sec] =
      .ok (.dtenc y mo d h mi sec) ∧
    (Reading.dtOk y.toNat mo.toNat d.toNat h.toNat mi.toNat sec.toNat →
      CompletesWith (.dtenc y mo d h mi sec) s .ok
        (Reading.dtBytes y.toNat mo.toNat d.toNat h.toNat mi.toNat sec.toNat)) ∧
    (¬Reading.dtOk y.toNat mo.toNat d.toNat h.toNat mi.toNat sec.toNat →
      CompletesWith (.dtenc y mo d h mi sec) s .argRange [])

/-- R185, R186: DTDEC gives every field in both statuses; byte 3 is neither decoded nor checked. -/
def Obligations.DtdecGivesTheFields : Prop :=
  ∀ (r0 r1 r2 r3 r4 r5 r6 : Byte) (s : State), s.resetIn = none →
    decode [0x07, r0, r1, r2, r3, r4, r5, r6] = .ok (.dtdec r0 r1 r2 r3 r4 r5 r6) ∧
    CompletesWith (.dtdec r0 r1 r2 r3 r4 r5 r6) s
      (if Reading.dtFieldsOk r0.toNat r1.toNat r2.toNat r4.toNat r5.toNat r6.toNat then .ok else .corruptData)
      (Reading.dtFields r0.toNat r1.toNat r2.toNat r4.toNat r5.toNat r6.toNat)

/-- R187: GETDT reads 0x00..0x06 in one burst and answers as DTDEC does, or BUS_ERROR. -/
def Obligations.GetdtDecodesTheTimeBlock : Prop :=
  ∀ s : State, s.resetIn = none →
    decode [0x10] = .ok .getdt ∧
    let r := fun i => (s.dataAt 0x00 i).toNat
    ReadCasesWith .getdt s 0x00 7
      (if Reading.dtFieldsOk (r 0) (r 1) (r 2) (r 4) (r 5) (r 6) then .ok else .corruptData)
      (Reading.dtFields (r 0) (r 1) (r 2) (r 4) (r 5) (r 6))

/-- R188: SETDT clears OSF, then writes the time; ARG_RANGE comes before any transaction, and BUS_ERROR at the first
transaction that is not acknowledged, after which none is issued. -/
def Obligations.SetdtClearsOsfThenWritesTheTime : Prop :=
  ∀ (y : Year) (mo d h mi sec : Byte) (s : State), s.resetIn = none →
    decode [0x11, BitVec.ofNat 8 (y.toNat % 256), BitVec.ofNat 8 (y.toNat / 256), mo, d, h, mi, sec] =
      .ok (.setdt y mo d h mi sec) ∧
    (¬Reading.dtOk y.toNat mo.toNat d.toNat h.toNat mi.toNat sec.toNat →
      CompletesWith (.setdt y mo d h mi sec) s .argRange []) ∧
    (Reading.dtOk y.toNat mo.toNat d.toNat h.toNat mi.toNat sec.toNat →
      let t := s.dataAt 0x0F 0
      ((s.answerAt 0).reply = .nack →
        Completes (.setdt y mo d h mi sec) s .busError [] [.read 0x0F 1 .nack []]) ∧
      ((s.answerAt 0).reply = .ack → (s.answerAt 1).reply = .nack →
        Completes (.setdt y mo d h mi sec) s .busError [] [.read 0x0F 1 .ack [t], .write 0x0F [t &&& 0x7F] .nack]) ∧
      ∃ r : List Byte,
        r.map BitVec.toNat = Reading.dtBytes y.toNat mo.toNat d.toNat h.toNat mi.toNat sec.toNat ∧
        ((s.answerAt 0).reply = .ack → (s.answerAt 1).reply = .ack → (s.answerAt 2).reply = .nack →
          Completes (.setdt y mo d h mi sec) s .busError []
            [.read 0x0F 1 .ack [t], .write 0x0F [t &&& 0x7F] .ack, .write 0x00 r .nack]) ∧
        ((s.answerAt 0).reply = .ack → (s.answerAt 1).reply = .ack → (s.answerAt 2).reply = .ack →
          Completes (.setdt y mo d h mi sec) s .ok []
            [.read 0x0F 1 .ack [t], .write 0x0F [t &&& 0x7F] .ack, .write 0x00 r .ack]))

/-- The law of R189: a date-time of the years 2000..2099 decodes back from its encoding, with byte 3 its weekday; one of
2100..2199 decodes 100 years earlier. -/
def Obligations.DateTimeRoundTrip : Prop :=
  ∀ x : DateTime, Reading.dtOk x.year x.month x.day x.hour x.minute x.second →
    ∃ r0 r1 r2 r3 r4 r5 r6 : Byte, dtEnc x = [r0, r1, r2, r3, r4, r5, r6] ∧
      r3.toNat = Reading.weekday x.year x.month x.day ∧
      (x.year ≤ 2099 → dtDec r0 r1 r2 r3 r4 r5 r6 = (x, true)) ∧
      (2100 ≤ x.year → dtDec r0 r1 r2 r3 r4 r5 r6 = ({ x with year := x.year - 100 }, true))

/-! ### Temperature -/

/-- R221: TMPDEC is OK for every byte pair: the degree byte as it stands and the quarters from the top two bits. -/
def Obligations.TmpdecGivesDegreesAndQuarters : Prop :=
  ∀ (r0 r1 : Byte) (s : State), s.resetIn = none →
    decode [0x08, r0, r1] = .ok (.tmpdec r0 r1) ∧
    CompletesWith (.tmpdec r0 r1) s .ok [r0.toNat, r1.toNat / 64]

/-- R222: GETTMP reads 0x11 and 0x12 in one burst and answers as TMPDEC does, or BUS_ERROR. -/
def Obligations.GettmpReadsTheTemperature : Prop :=
  ∀ s : State, s.resetIn = none →
    decode [0x12] = .ok .gettmp ∧
    ReadCasesWith .gettmp s 0x11 2 .ok [(s.dataAt 0x11 0).toNat, (s.dataAt 0x11 1).toNat / 64]

/-- R220's identity: the reading in quarter degrees is the 10-bit two's-complement number of the degree byte and the top two
bits of the fraction byte. -/
def Obligations.TemperatureIsATenBitNumber : Prop :=
  ∀ r0 r1 : Byte, ∃ quarters : Byte, tempDec r0 r1 = [r0, quarters] ∧
    tempInQuarters r0 quarters = (r0 ++ r1.extractLsb' 6 2 : BitVec 10).toInt

/-! ### Alarms -/

/-- R242: A1ENC interleaves the control bits with the time bytes, flags bits 7:5 ignored; ARG_RANGE out of range. -/
def Obligations.A1encInterleavesControlBits : Prop :=
  ∀ (sec mi h dy f : Byte) (s : State), s.resetIn = none →
    decode [0x09, sec, mi, h, dy, f] = .ok (.a1enc sec mi h dy f) ∧
    (Reading.alarmOk sec.toNat mi.toNat h.toNat dy.toNat →
      CompletesWith (.a1enc sec mi h dy f) s .ok (Reading.a1Bytes sec.toNat mi.toNat h.toNat dy.toNat f.toNat)) ∧
    (¬Reading.alarmOk sec.toNat mi.toNat h.toNat dy.toNat → CompletesWith (.a1enc sec mi h dy f) s .argRange [])

/-- R243, R244: A1DEC gives the fields and the 5-bit control word in both statuses. -/
def Obligations.A1decExtractsControlBits : Prop :=
  ∀ (r0 r1 r2 r3 : Byte) (s : State), s.resetIn = none →
    decode [0x0A, r0, r1, r2, r3] = .ok (.a1dec r0 r1 r2 r3) ∧
    CompletesWith (.a1dec r0 r1 r2 r3) s
      (if Reading.a1FieldsOk r0.toNat r1.toNat r2.toNat r3.toNat then .ok else .corruptData)
      (Reading.a1Fields r0.toNat r1.toNat r2.toNat r3.toNat)

/-- R247: A2ENC interleaves the control bits with the time bytes, flags bits 7:4 ignored; ARG_RANGE out of range. -/
def Obligations.A2encInterleavesControlBits : Prop :=
  ∀ (mi h dy f : Byte) (s : State), s.resetIn = none →
    decode [0x0B, mi, h, dy, f] = .ok (.a2enc mi h dy f) ∧
    (Reading.alarmOk 0 mi.toNat h.toNat dy.toNat →
      CompletesWith (.a2enc mi h dy f) s .ok (Reading.a2Bytes mi.toNat h.toNat dy.toNat f.toNat)) ∧
    (¬Reading.alarmOk 0 mi.toNat h.toNat dy.toNat → CompletesWith (.a2enc mi h dy f) s .argRange [])

/-- R248, R249: A2DEC gives the fields and the 4-bit control word in both statuses. -/
def Obligations.A2decExtractsControlBits : Prop :=
  ∀ (r0 r1 r2 : Byte) (s : State), s.resetIn = none →
    decode [0x0C, r0, r1, r2] = .ok (.a2dec r0 r1 r2) ∧
    CompletesWith (.a2dec r0 r1 r2) s
      (if Reading.a2FieldsOk r0.toNat r1.toNat r2.toNat then .ok else .corruptData)
      (Reading.a2Fields r0.toNat r1.toNat r2.toNat)

/-- R250: GETA1 reads 0x07..0x0A in one burst and answers as A1DEC does, or BUS_ERROR. -/
def Obligations.Geta1DecodesAlarmOne : Prop :=
  ∀ s : State, s.resetIn = none →
    decode [0x13] = .ok .geta1 ∧
    let r := fun i => (s.dataAt 0x07 i).toNat
    ReadCasesWith .geta1 s 0x07 4 (if Reading.a1FieldsOk (r 0) (r 1) (r 2) (r 3) then .ok else .corruptData)
      (Reading.a1Fields (r 0) (r 1) (r 2) (r 3))

/-- R252: GETA2 reads 0x0B..0x0D in one burst and answers as A2DEC does, or BUS_ERROR. -/
def Obligations.Geta2DecodesAlarmTwo : Prop :=
  ∀ s : State, s.resetIn = none →
    decode [0x15] = .ok .geta2 ∧
    let r := fun i => (s.dataAt 0x0B i).toNat
    ReadCasesWith .geta2 s 0x0B 3 (if Reading.a2FieldsOk (r 0) (r 1) (r 2) then .ok else .corruptData)
      (Reading.a2Fields (r 0) (r 1) (r 2))

/-- R251: SETA1 writes the bytes of A1ENC to 0x07..0x0A in one burst; ARG_RANGE before any transaction, or BUS_ERROR. -/
def Obligations.Seta1WritesAlarmOne : Prop :=
  ∀ (sec mi h dy f : Byte) (s : State), s.resetIn = none →
    decode [0x14, sec, mi, h, dy, f] = .ok (.seta1 sec mi h dy f) ∧
    (Reading.alarmOk sec.toNat mi.toNat h.toNat dy.toNat → ∃ r : List Byte,
      r.map BitVec.toNat = Reading.a1Bytes sec.toNat mi.toNat h.toNat dy.toNat f.toNat ∧
      WriteCases (.seta1 sec mi h dy f) s 0x07 r) ∧
    (¬Reading.alarmOk sec.toNat mi.toNat h.toNat dy.toNat → CompletesWith (.seta1 sec mi h dy f) s .argRange [])

/-- R253: SETA2 writes the bytes of A2ENC to 0x0B..0x0D in one burst; ARG_RANGE before any transaction, or BUS_ERROR. -/
def Obligations.Seta2WritesAlarmTwo : Prop :=
  ∀ (mi h dy f : Byte) (s : State), s.resetIn = none →
    decode [0x16, mi, h, dy, f] = .ok (.seta2 mi h dy f) ∧
    (Reading.alarmOk 0 mi.toNat h.toNat dy.toNat → ∃ r : List Byte,
      r.map BitVec.toNat = Reading.a2Bytes mi.toNat h.toNat dy.toNat f.toNat ∧
      WriteCases (.seta2 mi h dy f) s 0x0B r) ∧
    (¬Reading.alarmOk 0 mi.toNat h.toNat dy.toNat → CompletesWith (.seta2 mi h dy f) s .argRange [])

/-- The laws of R254: the fields and every control word come back from the encoding of an alarm. -/
def Obligations.AlarmRoundTrip : Prop :=
  (∀ x : AlarmOne, Reading.alarmOk x.second x.minute x.hour x.dayof → x.flags.toNat ≤ 31 →
    ∃ r0 r1 r2 r3 : Byte, a1Enc x = [r0, r1, r2, r3] ∧ a1Dec r0 r1 r2 r3 = (x, true)) ∧
  (∀ x : AlarmTwo, Reading.alarmOk 0 x.minute x.hour x.dayof → x.flags.toNat ≤ 15 →
    ∃ r0 r1 r2 : Byte, a2Enc x = [r0, r1, r2] ∧ a2Dec r0 r1 r2 = (x, true))

/-! ### Control and status -/

/-- R300: GETVALID answers 1 when OSF (bit 7) of 0x0F is 0 and 0 when it is 1; no write is issued. -/
def Obligations.GetvalidReportsOsfClear : Prop :=
  ∀ s : State, s.resetIn = none →
    decode [0x17] = .ok .getvalid ∧
    ReadCases .getvalid s 0x0F 1 .ok [if (s.dataAt 0x0F 0).toNat < 128 then 1 else 0]

/-- R302: GETRUN answers 1 when EOSC (bit 7) of 0x0E is 0 and 0 when it is 1; no write is issued. -/
def Obligations.GetrunReportsEoscClear : Prop :=
  ∀ s : State, s.resetIn = none →
    decode [0x18] = .ok .getrun ∧
    ReadCases .getrun s 0x0E 1 .ok [if (s.dataAt 0x0E 0).toNat < 128 then 1 else 0]

/-- R304: SETRUN 1 clears and SETRUN 0 sets EOSC of the byte read from 0x0E, and writes it back; ARG_RANGE above 1. -/
def Obligations.SetrunWritesEosc : Prop :=
  ∀ (a : Byte) (s : State), s.resetIn = none →
    decode [0x19, a] = .ok (.setrun a) ∧
    (a.toNat > 1 → CompletesWith (.setrun a) s .argRange []) ∧
    (a.toNat ≤ 1 → RmwCases (.setrun a) s 0x0E
      (BitVec.ofNat 8 ((s.dataAt 0x0E 0).toNat % 128 + (if a.toNat = 1 then 0 else 128))) [])

/-- R306: SET32K replaces EN32KHZ (bit 3) of the byte read from 0x0F and writes it back; ARG_RANGE above 1. -/
def Obligations.Set32kWritesTheEnable : Prop :=
  ∀ (a : Byte) (s : State), s.resetIn = none →
    decode [0x1A, a] = .ok (.set32k a) ∧
    (a.toNat > 1 → CompletesWith (.set32k a) s .argRange []) ∧
    (a.toNat ≤ 1 → RmwCases (.set32k a) s 0x0F
      (BitVec.ofNat 8 ((s.dataAt 0x0F 0).toNat / 16 * 16 + 8 * a.toNat + (s.dataAt 0x0F 0).toNat % 8)) [])

/-- R308 with the table of R309, which is the spec's own reconstruction: SQWMODE writes `(t & 0xB8) | MODESET[m]` to 0x0E;
ARG_RANGE above 5. -/
def Obligations.SqwmodeWritesTheModeBits : Prop :=
  ∀ (a : Byte) (s : State), s.resetIn = none →
    decode [0x1B, a] = .ok (.sqwmode a) ∧
    (a.toNat > 5 → CompletesWith (.sqwmode a) s .argRange []) ∧
    (∀ m : Byte, [0x04#8, 0x40#8, 0x00#8, 0x05#8, 0x06#8, 0x07#8][a.toNat]? = some m →
      RmwCases (.sqwmode a) s 0x0E ((s.dataAt 0x0E 0 &&& 0xB8) ||| m) [])

/-- R310: SQWRATE replaces RS2:RS1 (bits 4:3) of the byte read from 0x0E by the rate code; ARG_RANGE above 3. -/
def Obligations.SqwrateReplacesTheRateField : Prop :=
  ∀ (a : Byte) (s : State), s.resetIn = none →
    decode [0x1C, a] = .ok (.sqwrate a) ∧
    (a.toNat > 3 → CompletesWith (.sqwrate a) s .argRange []) ∧
    (a.toNat ≤ 3 → RmwCases (.sqwrate a) s 0x0E
      (BitVec.ofNat 8 ((s.dataAt 0x0E 0).toNat / 32 * 32 + 8 * a.toNat + (s.dataAt 0x0E 0).toNat % 8)) [])

/-- R312: LATCHAF reports bits 1:0 of the byte read from 0x0F and writes the byte back with them 0. -/
def Obligations.LatchafReportsAndClears : Prop :=
  ∀ s : State, s.resetIn = none →
    decode [0x1D] = .ok .latchaf ∧
    RmwCases .latchaf s 0x0F (BitVec.ofNat 8 ((s.dataAt 0x0F 0).toNat / 4 * 4))
      [BitVec.ofNat 8 ((s.dataAt 0x0F 0).toNat % 4)]

/-- R314, on SIM with no explicit answer or change: a second LATCHAF answers 0 for every flag. -/
def Obligations.SecondLatchafReadsClear : Prop :=
  ∀ s : State, s.Quiet → s.script = [] → s.resetIn = none → s.dev.wf = true →
    ∃ t u b, exec .latchaf s = .next t ∧ s.dev.read? 0x0F = some b ∧
      t.response = some { status := .ok, results := [b &&& 0x03] } ∧
      exec .latchaf t = .next u ∧ u.response = some { status := .ok, results := [0x00] }

/-- R316: FORCECONV sets CONV in 0x0E; without waiting it ends there; waiting, it polls 0x0E until CONV reads 0, at most
CONV_POLL_MAX times, and then ends with CONV_TIMEOUT. Poll `j` is answered by the device's answer to transaction `2 + j`, and
a byte that answer lists is the byte the poll reads. On SIM (R73) CONV never reads 0, so every poll is made. ARG_RANGE above
1; BUS_ERROR at the first transaction that is not acknowledged. (A transaction that never returns is
`SilentTransactionLeavesTheBlockBusy`.) -/
def Obligations.ForceconvSetsConvAndPolls : Prop :=
  ∀ (a : Byte) (s : State), s.resetIn = none →
    decode [0x1E, a] = .ok (.forceconv a) ∧
    let w := s.dataAt 0x0E 0 ||| 0x20
    let started : List Event := [.read 0x0E 1 .ack [s.dataAt 0x0E 0], .write 0x0E [w] .ack]
    (a.toNat > 1 → CompletesWith (.forceconv a) s .argRange []) ∧
    (a.toNat = 0 → RmwCases (.forceconv a) s 0x0E w []) ∧
    (a.toNat = 1 →
      ((s.answerAt 0).reply = .nack → Completes (.forceconv a) s .busError [] [.read 0x0E 1 .nack []]) ∧
      ((s.answerAt 0).reply = .ack → (s.answerAt 1).reply = .nack →
        Completes (.forceconv a) s .busError [] [.read 0x0E 1 .ack [s.dataAt 0x0E 0], .write 0x0E [w] .nack]) ∧
      ((s.answerAt 0).reply = .ack → (s.answerAt 1).reply = .ack →
        (∀ j, j < s.convPollMax → (s.answerAt (2 + j)).reply ≠ .silent) →
        ∃ polls st, pollStatus s.convPollMax polls = some st ∧
          (∀ (j : Nat) (e : Event), polls[j]? = some e →
            e.reply = (s.answerAt (2 + j)).reply ∧
            (e.reply = .ack → ∀ d, (s.answerAt (2 + j)).data[0]? = some d → e = .read 0x0E 1 .ack [d])) ∧
          Completes (.forceconv a) s st [] (started ++ polls)) ∧
      (s.Quiet → s.script = [] → s.dev.wf = true →
        Completes (.forceconv a) s .convTimeout []
          (started ++ List.replicate s.convPollMax (.read 0x0E 1 .ack [w]))))

/-- R320: GETAGE answers the byte read from 0x10 as it stands. -/
def Obligations.GetageReturnsTheRawByte : Prop :=
  ∀ s : State, s.resetIn = none →
    decode [0x1F] = .ok .getage ∧
    ReadCases .getage s 0x10 1 .ok [s.dataAt 0x10 0]

/-- R322: SETAGE writes its operand to 0x10 as it stands, with no read. -/
def Obligations.SetageWritesTheRawByte : Prop :=
  ∀ (a : Byte) (s : State), s.resetIn = none →
    decode [0x20, a] = .ok (.setage a) ∧
    WriteCases (.setage a) s 0x10 [a]

/-- R281, R324: every setter's read-modify-write changes only the bits it owns: outside them the byte written is the byte
read. -/
def Obligations.OnlyOwnedBitsChange : Prop :=
  ∀ (i : Instr) (s : State) (addr : Nat) (mask : Byte),
    s.resetIn = none → i.wellFormed = true → ownedBits i = some (addr, mask) →
    (s.answerAt 0).reply = .ack → (s.answerAt 1).reply = .ack →
    ∃ t w later, exec i s = .next t ∧
      t.events = s.events ++ .read addr 1 .ack [s.dataAt addr 0] :: .write addr [w] .ack :: later ∧
      w &&& ~~~mask = s.dataAt addr 0 &&& ~~~mask

/-- R387: a setter that reads CONV = 1 from 0x0E writes CONV = 1 back. -/
def Obligations.ConvIsWrittenBack : Prop :=
  ∀ (i : Instr) (s t : State) (b : Byte) (r : Reply) (w : Byte) (later : List Event),
    exec i s = .next t →
    t.events = s.events ++ .read 0x0E 1 .ack [b] :: .write 0x0E [w] r :: later →
    b.toNat / 32 % 2 = 1 → w.toNat / 32 % 2 = 1

/-! ### All operations -/

/-- R342: ARG_RANGE is the response exactly of an operation whose operands are out of range, before any transaction and with
no other effect, the chip's own change at its response apart (log 13). -/
def Obligations.ArgRangeExactlyWhenIllFormed : Prop :=
  ∀ (i : Instr) (s : State), s.resetIn = none →
    (i.wellFormed = false → CompletesAlone i s .argRange []) ∧
    (i.wellFormed = true → ∀ t r, exec i s = .next t → t.seq = .idle → t.response = some r → r.status ≠ .argRange)

/-- R343: BUS_ERROR is the response exactly when the last transaction was not acknowledged, every one before it was, and
none is issued after it; a pure operation never raises it. -/
def Obligations.BusErrorExactlyAtTheFailedTransaction : Prop :=
  ∀ (i : Instr) (s t : State) (r : Response), s.resetIn = none → exec i s = .next t → t.seq = .idle →
    t.response = some r →
    ∃ issued, t.events = s.events ++ issued ∧
      (r.status ≠ .busError → ∀ e ∈ issued, e.reply = .ack) ∧
      (r.status = .busError → isPure i = false ∧ r.results = [] ∧
        ∃ before last, issued = before ++ [last] ∧ last.reply = .nack ∧ ∀ e ∈ before, e.reply = .ack)

/-- R346: CORRUPT_DATA comes only from the eight decoders, with all their results and all their transactions made. -/
def Obligations.CorruptDataDeliversEveryResult : Prop :=
  ∀ (i : Instr) (s t : State) (r : Response), s.resetIn = none → exec i s = .next t → t.seq = .idle →
    t.response = some r → r.status = .corruptData →
    i.opcode ∈ [0x02, 0x04, 0x07, 0x0A, 0x0C, 0x10, 0x13, 0x15] ∧ r.results.length = i.resultBytes ∧
      ∃ issued, t.events = s.events ++ issued ∧ issued.map Event.transaction = transactionsOf s.convPollMax i

/-- R344: CONV_TIMEOUT comes only from a blocking FORCECONV after CONV_POLL_MAX poll reads that all found CONV = 1. -/
def Obligations.ConvTimeoutOnlyAfterEveryPoll : Prop :=
  ∀ (i : Instr) (s t : State) (r : Response), s.resetIn = none → exec i s = .next t → t.seq = .idle →
    t.response = some r → r.status = .convTimeout →
    i = .forceconv 1 ∧ r.results = [] ∧
      ∃ b w polls, t.events = s.events ++ .read 0x0E 1 .ack [b] :: .write 0x0E [w] .ack :: polls ∧
        w.toNat / 32 % 2 = 1 ∧ polls.length = s.convPollMax ∧
        ∀ e ∈ polls, ∃ d : Byte, e = .read 0x0E 1 .ack [d] ∧ d.toNat / 32 % 2 = 1

/-- The lists of R75: whatever the device answers and whenever a reset comes (R380, with the model's reset input, log 9), the
transactions an operation issues are the first ones of its list, in order; all of it when it ends with OK or CORRUPT_DATA, a
blocking FORCECONV apart. That none follows one that is not acknowledged is `BusErrorExactlyAtTheFailedTransaction`, and that
none precedes a failed argument check is `ArgRangeExactlyWhenIllFormed`. -/
def Obligations.TransactionsFollowTheList : Prop :=
  ∀ (i : Instr) (s t : State), exec i s = .next t →
    ∃ issued, t.events = s.events ++ issued ∧
      issued.map Event.transaction <+: transactionsOf s.convPollMax i ∧
      (∀ r, s.resetIn = none → t.seq = .idle → t.response = some r → r.status.delivers = true → i ≠ .forceconv 1 →
        issued.map Event.transaction = transactionsOf s.convPollMax i)

/-- R358: every operation makes at most 2 + CONV_POLL_MAX transactions, each inside the register map. -/
def Obligations.TransactionsAreBounded : Prop :=
  ∀ (i : Instr) (s t : State), 1 ≤ s.convPollMax → exec i s = .next t →
    ∃ issued, t.events = s.events ++ issued ∧ issued.length ≤ 2 + s.convPollMax ∧
      ∀ e ∈ issued, e.transaction.inMap = true

/-- R101: a response carries the m results of its operation with OK and CORRUPT_DATA, and none with any other status. -/
def Obligations.ResponseCarriesExactlyItsResults : Prop :=
  ∀ (i : Instr) (s t : State) (r : Response), s.resetIn = none → exec i s = .next t → t.seq = .idle →
    t.response = some r →
    r.status ≠ .illegalCommand ∧
      r.results.length = (if r.status = .ok ∨ r.status = .corruptData then i.resultBytes else 0)

/-- A pure operation completes in every state, issues no transaction and leaves the device as it was, the chip's own change
at its response apart (log 13). -/
def Obligations.PureOperationsTouchNoRegister : Prop :=
  ∀ (i : Instr) (s : State), isPure i = true → s.resetIn = none →
    ∃ st results, CompletesAlone i s st results ∧ st ≠ .busError ∧ st ≠ .convTimeout

/-- The response of a pure operation depends on nothing but its operands: two states give the same. -/
def Obligations.PureResponseDependsOnOperandsOnly : Prop :=
  ∀ (i : Instr) (s s' t t' : State), isPure i = true → s.resetIn = none → s'.resetIn = none →
    exec i s = .next t → exec i s' = .next t' → t.response = t'.response

/-- R36: on a device that changes nothing of its own, an operation changes no device register but those the map says it
writes, whatever its transactions' replies. -/
def Obligations.OtherDeviceRegistersUnchanged : Prop :=
  ∀ (i : Instr) (s t : State) (a : Nat), s.Quiet → exec i s = .next t → a ∉ writtenRegisters i →
    t.dev.read? a = s.dev.read? a

/-- R73: on a device that changes nothing of its own, what an acknowledged SETAGE, SETA1, SETA2 or SETDT writes is what its
registers hold, and so is the byte that a setter's acknowledged read-modify-write writes.

R84: of a write that is not acknowledged, or never returns, only a first part may have reached its registers, and nothing
else; a write SIM is made to NACK leaves them all. Of any operation, on a chip that changes nothing of its own meanwhile and
however its transactions and a reset come out: every register holds what the last of the operation's writes stored there, or
what it held before. So SETDT whose time write is not acknowledged leaves OSF cleared and a first part of the time. That a
prefix's length is the number the device's answer gives is the model's choice (log 14). -/
def Obligations.AcknowledgedWritesAreHeld : Prop :=
  (∀ s : State, s.Quiet → s.resetIn = none → s.dev.wf = true → (∀ j, j ≤ 2 → (s.answerAt j).reply = .ack) →
    (∀ a : Byte, ∃ t, exec (.setage a) s = .next t ∧ t.dev.read? 0x10 = some a) ∧
    (∀ sec mi h dy f : Byte, Reading.alarmOk sec.toNat mi.toNat h.toNat dy.toNat →
      ∃ t, exec (.seta1 sec mi h dy f) s = .next t ∧
        (List.range 4).map (fun j => (t.dev.read? (0x07 + j)).map BitVec.toNat) =
          (Reading.a1Bytes sec.toNat mi.toNat h.toNat dy.toNat f.toNat).map some) ∧
    (∀ mi h dy f : Byte, Reading.alarmOk 0 mi.toNat h.toNat dy.toNat →
      ∃ t, exec (.seta2 mi h dy f) s = .next t ∧
        (List.range 3).map (fun j => (t.dev.read? (0x0B + j)).map BitVec.toNat) =
          (Reading.a2Bytes mi.toNat h.toNat dy.toNat f.toNat).map some) ∧
    (∀ (y : Year) (mo d h mi sec : Byte), Reading.dtOk y.toNat mo.toNat d.toNat h.toNat mi.toNat sec.toNat →
      ∃ t, exec (.setdt y mo d h mi sec) s = .next t ∧
        t.dev.read? 0x0F = some (s.dataAt 0x0F 0 &&& 0x7F) ∧
        (List.range 7).map (fun j => (t.dev.read? j).map BitVec.toNat) =
          (Reading.dtBytes y.toNat mo.toNat d.toNat h.toNat mi.toNat sec.toNat).map some) ∧
    (∀ (i : Instr) (addr : Nat) (mask : Byte), i.wellFormed = true → ownedBits i = some (addr, mask) →
      ∃ t w later, exec i s = .next t ∧
        t.events = s.events ++ .read addr 1 .ack [s.dataAt addr 0] :: .write addr [w] .ack :: later ∧
        t.dev.read? addr = some w)) ∧
  (∀ (i : Instr) (s t : State) (issued : List Event), s.StillFor (4 + s.convPollMax) → s.dev.wf = true →
    exec i s = .next t → t.events = s.events ++ issued →
    ∀ a, t.dev.read? a = heldAfter (landedOf s (issued.length - 1)) s.dev issued a) ∧
  (∀ (y : Year) (mo d h mi sec : Byte) (s : State), s.StillFor 4 → s.resetIn = none → s.dev.wf = true →
    Reading.dtOk y.toNat mo.toNat d.toNat h.toNat mi.toNat sec.toNat →
    (s.answerAt 0).reply = .ack → (s.answerAt 1).reply = .ack → (s.answerAt 2).reply ≠ .ack →
    ∃ (t : State) (r : List Byte), exec (.setdt y mo d h mi sec) s = .next t ∧
      r.map BitVec.toNat = Reading.dtBytes y.toNat mo.toNat d.toNat h.toNat mi.toNat sec.toNat ∧
      t.dev.read? 0x0F = some (s.dataAt 0x0F 0 &&& 0x7F) ∧
      ∀ (j : Nat) (b : Byte), r[j]? = some b →
        t.dev.read? j = if j < landedOf s 2 then some b else s.dev.read? j)

/-! ### The machine -/

/-- Every step keeps the invariant, from every state that meets it. -/
def Obligations.StepKeepsTheInvariant : Prop :=
  ∀ s t : State, s.Inv → step s = .next t → t.Inv

/-- The state after reset meets the invariant. -/
def Obligations.ResetMeetsTheInvariant : Prop :=
  State.reset.Inv

/-- R358: a transaction that never returns leaves the block BUSY with no response and no further step, and that is no
fault: an operation whose first transaction does not return ends so, and in every operation the block is BUSY afterwards
exactly when its last transaction did not return, the ones before it being acknowledged and counted by `phase` (R33). From
then on until a reset (log 9) every step leaves the block as it is, and the device too but for the chip's own changes. -/
def Obligations.SilentTransactionLeavesTheBlockBusy : Prop :=
  (∀ (i : Instr) (s : State), isPure i = false → i.wellFormed = true → s.resetIn = none →
    (s.answerAt 0).reply = .silent →
    ∃ t e, exec i s = .next t ∧ t.seq = .busy { phase := 0, buf := [], t := none, k := none } ∧
      t.response = s.response ∧ t.events = s.events ++ [e] ∧ e.reply = .silent) ∧
  (∀ (i : Instr) (s t : State), s.resetIn = none → exec i s = .next t →
    ∃ issued, t.events = s.events ++ issued ∧
      ((∃ e ∈ issued, e.reply = .silent) → ∃ b, t.seq = .busy b) ∧
      (∀ b, t.seq = .busy b → t.response = s.response ∧ t.resetIn = none ∧
        ∃ before last, issued = before ++ [last] ∧ last.reply = .silent ∧ (∀ e ∈ before, e.reply = .ack) ∧
          b.phase = before.length)) ∧
  (∀ (t : State) (b : Busy), t.seq = .busy b → t.resetIn ≠ some 0 →
    step t = .next { t with
      dev := t.dev.writeCells t.chipNow
      chip := t.chip.tail
      moment := t.moment + 1
      resetIn := t.resetIn.map fun n => n - 1 } ∧
    (t.Quiet → t.dev.writeCells t.chipNow = t.dev))

/-- R380, R382, with the model's reset input (log 9), which counts the actions of the block: an acceptance, a transaction, a
response, a step of waiting. For every operation and every count: a reset after `n` transactions and before the response
abandons the operation with no response and with exactly those transactions issued, and one that does not come before the
operation ends, or before the transaction that never returns, changes nothing of it. So a reset between the read and the
write of a read-modify-write leaves the register unwritten, and one between SETDT's two writes leaves OSF cleared and the time
unwritten. A reset of an IDLE block, of a block left BUSY, and of one that has just accepted a frame, whatever the frame, leaves
it IDLE with no command and no response. The device is as its own changes leave it. -/
def Obligations.ResetAbandonsTheOperation : Prop :=
  (∀ (i : Instr) (s t u : State) (n : Nat), s.resetIn = some n →
    exec i s = .next t → exec i { s with resetIn := none } = .next u →
    ∃ issued, u.events = s.events ++ issued ∧
      ((n < issued.length ∨ (n = issued.length ∧ u.seq = .idle)) →
        t.seq = .idle ∧ t.response = none ∧ t.command = [] ∧ t.resetIn = none ∧ t.host = s.host ∧
        t.events = s.events ++ issued.take n ∧
        (s.Quiet → (∀ e ∈ issued.take n, ∃ addr m r d, e = .read addr m r d) → t.dev = s.dev)) ∧
      (¬(n < issued.length ∨ (n = issued.length ∧ u.seq = .idle)) →
        t = { u with resetIn := some (n - (issued.length + if u.seq = .idle then 1 else 0)) })) ∧
  (∀ (i : Instr) (s : State) (addr : Nat) (mask : Byte), s.resetIn = some 1 → i.wellFormed = true →
    ownedBits i = some (addr, mask) → (s.answerAt 0).reply = .ack →
    ∃ t, exec i s = .next t ∧ t.seq = .idle ∧ t.response = none ∧ t.command = [] ∧
      t.events = s.events ++ [.read addr 1 .ack [s.dataAt addr 0]] ∧ (s.Quiet → t.dev = s.dev)) ∧
  (∀ (y : Year) (mo d h mi sec : Byte) (s : State), s.resetIn = some 2 →
    Reading.dtOk y.toNat mo.toNat d.toNat h.toNat mi.toNat sec.toNat →
    (s.answerAt 0).reply = .ack → (s.answerAt 1).reply = .ack →
    ∃ t, exec (.setdt y mo d h mi sec) s = .next t ∧ t.seq = .idle ∧ t.response = none ∧ t.command = [] ∧
      t.events = s.events ++ [.read 0x0F 1 .ack [s.dataAt 0x0F 0], .write 0x0F [s.dataAt 0x0F 0 &&& 0x7F] .ack] ∧
      (s.Quiet → s.dev.wf = true →
        t.dev.read? 0x0F = some (s.dataAt 0x0F 0 &&& 0x7F) ∧ ∀ a, a ≠ 0x0F → t.dev.read? a = s.dev.read? a)) ∧
  (∀ s : State, s.resetIn = some 0 →
    step s = .next { s with
      command := []
      response := none
      seq := .idle
      dev := s.dev.writeCells s.chipNow
      chip := s.chip.tail
      moment := s.moment + 1
      resetIn := none } ∧
    (s.Quiet → s.dev.writeCells s.chipNow = s.dev)) ∧
  (∀ (s : State) (frame : List Byte) (rest : List (List Byte)),
    s.seq = .idle → s.resetIn = some 1 → s.host = frame :: rest →
    ∃ t, step s = .next t ∧ t.seq = .idle ∧ t.response = none ∧ t.command = [] ∧ t.resetIn = none ∧ t.host = rest ∧
      t.events = s.events ∧ t.dev = s.dev.writeCells s.chipNow)

/-- R31, R32, R341: the host reads the status code of a response from ST and its results from Q0..Q(m-1); a read past them,
or with no response, is a fault of the host. -/
def Obligations.HostReadsOnlyTheResponse : Prop :=
  (∀ (s : State) (j : Nat),
    (∀ r, s.response = some r →
      (∀ q, r.results[j]? = some q → s.hostReadQ j = .ok q) ∧
      (r.results.length ≤ j → s.hostReadQ j = .error .hostReadNoValue)) ∧
    (s.response = none → s.hostReadQ j = .error .hostReadNoValue)) ∧
  (∀ s : State,
    (∀ r, s.response = some r →
      (r.status = .ok → s.hostReadST = .ok 0x00#8) ∧
      (r.status = .corruptData → s.hostReadST = .ok 0x01#8) ∧
      (r.status = .argRange → s.hostReadST = .ok 0x02#8) ∧
      (r.status = .busError → s.hostReadST = .ok 0x03#8) ∧
      (r.status = .convTimeout → s.hostReadST = .ok 0x04#8) ∧
      (r.status = .illegalCommand → s.hostReadST = .ok 0x05#8)) ∧
    (s.response = none → s.hostReadST = .error .hostReadNoValue))
end

