-- ==== Sys2Proof/Laws/Codec.lean ====
section
/-! SUPPORT. The codec functions as arithmetic on natural numbers. -/

namespace Sys2Proof.Machine

theorem toByte_toNat (v : Nat) : (toByte v).toNat = v % 256 := by simp [toByte]

theorem highNibble_eq (b : Byte) : highNibble b = b.toNat / 16 := by
  simp [highNibble, BitVec.toNat_ushiftRight, Nat.shiftRight_eq_div_pow]

theorem lowNibble_eq (b : Byte) : lowNibble b = b.toNat % 16 := by
  have := Nat.and_two_pow_sub_one_eq_mod b.toNat 4
  simpa [lowNibble] using this

/-- `bcd_dec` is ten times the high nibble plus the low nibble. -/
theorem bcdDec_eq (b : Byte) : bcdDec b = b.toNat / 16 * 10 + b.toNat % 16 := by
  simp [bcdDec, highNibble_eq, lowNibble_eq]

/-- `bcd_enc` is sixteen times the tens count, kept in 4 bits, plus the units digit. -/
theorem bcdEnc_toNat (v : Nat) : (bcdEnc v).toNat = 16 * (v / 10 % 16) + v % 10 := by
  have h1 : v / 10 % 16 < 16 := Nat.mod_lt _ (by decide)
  have h2 : v % 10 < 10 := Nat.mod_lt _ (by decide)
  unfold bcdEnc
  generalize v / 10 % 16 = x at *
  generalize v % 10 = y at *
  interval_cases x <;> interval_cases y <;> rfl

/-- Bit `i` is the parity of the byte divided by `2 ^ i`. -/
theorem bit_eq (b : Byte) (i : Nat) : bit b i = decide (b.toNat / 2 ^ i % 2 = 1) := by
  simp [bit, BitVec.getLsbD, Nat.testBit_eq_decide_div_mod_eq]

theorem mask7F_toNat (b : Byte) : (b &&& 0x7F#8).toNat = b.toNat % 128 := by
  simpa using Nat.and_two_pow_sub_one_eq_mod b.toNat 7

theorem mask3F_toNat (b : Byte) : (b &&& 0x3F#8).toNat = b.toNat % 64 := by
  simpa using Nat.and_two_pow_sub_one_eq_mod b.toNat 6

theorem mask1F_toNat (b : Byte) : (b &&& 0x1F#8).toNat = b.toNat % 32 := by
  simpa using Nat.and_two_pow_sub_one_eq_mod b.toNat 5

theorem topTwo_toNat (b : Byte) : (topTwo b).toNat = b.toNat / 64 := by
  simp [topTwo, BitVec.toNat_ushiftRight, Nat.shiftRight_eq_div_pow]

end Sys2Proof.Machine
end

