-- ==== Sys2Proof/Laws/Decode.lean ====
section
/-! SUPPORT. The year operand and its two bytes, and what an accepted opcode's operands are. -/

namespace Sys2Proof

/-- `year = yhi * 256 + ylo` (30_encoding.md R102). -/
theorem yearOf_toNat (lo hi : Byte) : (yearOf lo hi).toNat = hi.toNat * 256 + lo.toNat := by
  have h := BitVec.toNat_append hi lo
  rw [← Nat.shiftLeft_add_eq_or_of_lt lo.isLt, Nat.shiftLeft_eq] at h
  exact h

theorem ylo_toNat (y : Year) : (ylo y).toNat = y.toNat % 256 := by simp [ylo]

theorem yhi_toNat (y : Year) : (yhi y).toNat = y.toNat / 256 := by
  have := y.isLt
  simp [yhi, Nat.shiftRight_eq_div_pow]; omega

/-- A year is the year of its two bytes. -/
@[simp] theorem yearOf_bytes (y : Year) : yearOf (ylo y) (yhi y) = y := by
  apply BitVec.eq_of_toNat_eq
  rw [yearOf_toNat, ylo_toNat, yhi_toNat]; omega

@[simp] theorem ylo_yearOf (lo hi : Byte) : ylo (yearOf lo hi) = lo := by
  apply BitVec.eq_of_toNat_eq
  have := lo.isLt
  rw [ylo_toNat, yearOf_toNat]; omega

@[simp] theorem yhi_yearOf (lo hi : Byte) : yhi (yearOf lo hi) = hi := by
  apply BitVec.eq_of_toNat_eq
  have := lo.isLt
  rw [yhi_toNat, yearOf_toNat]; omega

end Sys2Proof
end

