-- ==== Sys2Proof/Laws/Memory.lean ====
section
/-! SUPPORT. The device memory: read after write, what a write leaves alone, and the form every operation keeps. -/

namespace Sys2Proof.Machine

/-- The addresses a memory lists. -/
def Memory.keys (m : Memory) : List Nat := m.map fun c => c.1

theorem Memory.wf_iff (m : Memory) : m.wf = true ↔ m.keys = List.range 19 := by
  simp [Memory.wf, Memory.keys]

@[simp] theorem Memory.keys_write (m : Memory) (a : Nat) (v : Byte) : (m.write a v).keys = m.keys := by
  simp only [Memory.keys, Memory.write, List.map_map]
  refine List.map_congr_left fun c _ => ?_
  by_cases h : c.1 = a <;> simp [h]

@[simp] theorem Memory.keys_writeBytes (m : Memory) (a : Nat) (v : List Byte) : (m.writeBytes a v).keys = m.keys := by
  induction v generalizing m a with
  | nil => rfl
  | cons b vs ih => simp [Memory.writeBytes, ih]

@[simp] theorem Memory.keys_writeCells (m : Memory) (cs : List Host.Cell) : (m.writeCells cs).keys = m.keys := by
  induction cs generalizing m with
  | nil => rfl
  | cons c cs ih => simp [Memory.writeCells, ih]

/-- One write keeps the form. -/
@[simp] theorem Memory.wf_write (m : Memory) (a : Nat) (v : Byte) : (m.write a v).wf = m.wf := by
  rw [Bool.eq_iff_iff, Memory.wf_iff, Memory.wf_iff, Memory.keys_write]

/-- A burst keeps the form. -/
@[simp] theorem Memory.wf_writeBytes (m : Memory) (a : Nat) (v : List Byte) : (m.writeBytes a v).wf = m.wf := by
  rw [Bool.eq_iff_iff, Memory.wf_iff, Memory.wf_iff, Memory.keys_writeBytes]

/-- The chip's own changes keep the form. -/
@[simp] theorem Memory.wf_writeCells (m : Memory) (cs : List Host.Cell) : (m.writeCells cs).wf = m.wf := by
  rw [Bool.eq_iff_iff, Memory.wf_iff, Memory.wf_iff, Memory.keys_writeCells]

/-- The reset memory has the form. -/
theorem reset_dev_wf : State.reset.dev.wf = true := by
  rw [Memory.wf_iff]; simp [State.reset, Memory.keys, Function.comp_def]

@[simp] theorem Memory.writeBytes_nil (m : Memory) (a : Nat) : m.writeBytes a [] = m := rfl

@[simp] theorem Memory.writeCells_nil (m : Memory) : m.writeCells [] = m := rfl

@[simp] theorem Memory.read?_nil (a : Nat) : Memory.read? [] a = none := rfl

theorem Memory.read?_cons (c : Host.Cell) (m : Memory) (a : Nat) :
    Memory.read? (c :: m) a = if c.1 = a then some c.2 else Memory.read? m a := by
  by_cases h : c.1 = a <;> simp [Memory.read?, h]

/-- A register is listed exactly when reading it gives a value. -/
theorem Memory.read?_isSome (m : Memory) (a : Nat) : (m.read? a).isSome = true ↔ a ∈ m.keys := by
  induction m with
  | nil => simp [Memory.keys]
  | cons c m ih =>
    rw [Memory.read?_cons]
    by_cases h : c.1 = a
    · simp [h, Memory.keys]
    · have h' : a ≠ c.1 := fun e => h e.symm
      simpa [h, h', Memory.keys] using ih

/-- A write is read back where the register exists. -/
theorem Memory.read?_write_same (m : Memory) (a : Nat) (v : Byte) (h : (m.read? a).isSome = true) :
    (m.write a v).read? a = some v := by
  induction m with
  | nil => simp at h
  | cons c m ih =>
    rw [Memory.read?_cons] at h
    by_cases hc : c.1 = a
    · simp [Memory.write, Memory.read?_cons, hc]
    · have : Memory.write (c :: m) a v = c :: Memory.write m a v := by simp [Memory.write, hc]
      rw [this, Memory.read?_cons, if_neg hc]
      exact ih (by simpa [hc] using h)

/-- A write leaves every other register alone. -/
theorem Memory.read?_write_other (m : Memory) (a b : Nat) (v : Byte) (h : b ≠ a) :
    (m.write a v).read? b = m.read? b := by
  induction m with
  | nil => rfl
  | cons c m ih =>
    by_cases hc : c.1 = a
    · have : Memory.write (c :: m) a v = (a, v) :: Memory.write m a v := by simp [Memory.write, hc]
      rw [this, Memory.read?_cons, Memory.read?_cons, ih, if_neg (Ne.symm h), if_neg (by rw [hc]; exact Ne.symm h)]
    · have : Memory.write (c :: m) a v = c :: Memory.write m a v := by simp [Memory.write, hc]
      rw [this, Memory.read?_cons, Memory.read?_cons, ih]

/-- A burst leaves every register outside it alone. -/
theorem Memory.read?_writeBytes_outside (m : Memory) (a b : Nat) (v : List Byte) (h : b < a ∨ a + v.length ≤ b) :
    (m.writeBytes a v).read? b = m.read? b := by
  induction v generalizing m a with
  | nil => rfl
  | cons x vs ih =>
    simp only [List.length_cons] at h
    rw [Memory.writeBytes, ih _ _ (by omega), Memory.read?_write_other _ _ _ _ (by omega)]

/-- A burst is read back, byte `i` at address `a + i`, where the register exists. -/
theorem Memory.read?_writeBytes_inside (m : Memory) (a i : Nat) (v : List Byte) (hi : i < v.length)
    (h : (m.read? (a + i)).isSome = true) : (m.writeBytes a v).read? (a + i) = some v[i] := by
  induction v generalizing m a i with
  | nil => simp at hi
  | cons x vs ih =>
    cases i with
    | zero =>
      rw [Memory.writeBytes, Memory.read?_writeBytes_outside _ _ _ _ (by omega)]
      exact Memory.read?_write_same _ _ _ h
    | succ i =>
      have e : a + (i + 1) = a + 1 + i := by omega
      rw [e] at h ⊢
      rw [Memory.writeBytes, ih (m.write a x) (a + 1) i (by simpa using hi)
        (by rwa [Memory.read?_write_other _ _ _ _ (by omega)])]
      rfl

/-- In a memory of the form, every register 0x00..0x12 holds a value. -/
theorem Memory.wf_read? (m : Memory) (a : Nat) (h : m.wf = true) (ha : a < 19) : (m.read? a).isSome = true := by
  rw [Memory.read?_isSome, (Memory.wf_iff m).1 h]; simpa using ha

end Sys2Proof.Machine
end

