-- ==== Sys2Proof/Laws/State.lean ====
section
/-! SUPPORT. What each update of the state does to each field: one lemma per field per update. -/

namespace Sys2Proof.Machine

@[simp] theorem Sequencer.map_idle (f : Busy → Busy) : Sequencer.map f .idle = .idle := rfl
@[simp] theorem Sequencer.map_busy (f : Busy → Busy) (b : Busy) : Sequencer.map f (.busy b) = .busy (f b) := rfl

@[simp] theorem State.blockReset_command (s : State) : (s.blockReset).command = [] := rfl
@[simp] theorem State.blockReset_response (s : State) : (s.blockReset).response = none := rfl
@[simp] theorem State.blockReset_seq (s : State) : (s.blockReset).seq = .idle := rfl
@[simp] theorem State.blockReset_dev (s : State) : (s.blockReset).dev = s.dev := rfl
@[simp] theorem State.blockReset_events (s : State) : (s.blockReset).events = s.events := rfl
@[simp] theorem State.blockReset_host (s : State) : (s.blockReset).host = s.host := rfl
@[simp] theorem State.blockReset_transport (s : State) : (s.blockReset).transport = s.transport := rfl
@[simp] theorem State.blockReset_script (s : State) : (s.blockReset).script = s.script := rfl
@[simp] theorem State.blockReset_draws (s : State) : (s.blockReset).draws = s.draws := rfl
@[simp] theorem State.blockReset_chip (s : State) : (s.blockReset).chip = s.chip := rfl
@[simp] theorem State.blockReset_moment (s : State) : (s.blockReset).moment = s.moment := rfl
@[simp] theorem State.blockReset_convPollMax (s : State) : (s.blockReset).convPollMax = s.convPollMax := rfl
@[simp] theorem State.blockReset_resetIn (s : State) : (s.blockReset).resetIn = none := rfl

@[simp] theorem State.tick_command (s : State) : (s.tick).command = s.command := rfl
@[simp] theorem State.tick_response (s : State) : (s.tick).response = s.response := rfl
@[simp] theorem State.tick_seq (s : State) : (s.tick).seq = s.seq := rfl
@[simp] theorem State.tick_dev (s : State) : (s.tick).dev = s.dev.writeCells s.chipNow := rfl
@[simp] theorem State.tick_events (s : State) : (s.tick).events = s.events := rfl
@[simp] theorem State.tick_host (s : State) : (s.tick).host = s.host := rfl
@[simp] theorem State.tick_transport (s : State) : (s.tick).transport = s.transport := rfl
@[simp] theorem State.tick_script (s : State) : (s.tick).script = s.script := rfl
@[simp] theorem State.tick_draws (s : State) : (s.tick).draws = s.draws := rfl
@[simp] theorem State.tick_chip (s : State) : (s.tick).chip = s.chip.tail := rfl
@[simp] theorem State.tick_moment (s : State) : (s.tick).moment = s.moment + 1 := rfl
@[simp] theorem State.tick_convPollMax (s : State) : (s.tick).convPollMax = s.convPollMax := rfl
@[simp] theorem State.tick_resetIn (s : State) : (s.tick).resetIn = s.resetIn.map fun n => n - 1 := rfl

@[simp] theorem State.accept_command (s : State) (f : List Byte) (rest : List (List Byte)) : (s.accept f rest).command = f := rfl
@[simp] theorem State.accept_response (s : State) (f : List Byte) (rest : List (List Byte)) : (s.accept f rest).response = none := rfl
@[simp] theorem State.accept_seq (s : State) (f : List Byte) (rest : List (List Byte)) : (s.accept f rest).seq = s.seq := rfl
@[simp] theorem State.accept_dev (s : State) (f : List Byte) (rest : List (List Byte)) : (s.accept f rest).dev = s.dev.writeCells s.chipNow := rfl
@[simp] theorem State.accept_events (s : State) (f : List Byte) (rest : List (List Byte)) : (s.accept f rest).events = s.events := rfl
@[simp] theorem State.accept_host (s : State) (f : List Byte) (rest : List (List Byte)) : (s.accept f rest).host = rest := rfl
@[simp] theorem State.accept_transport (s : State) (f : List Byte) (rest : List (List Byte)) : (s.accept f rest).transport = s.transport := rfl
@[simp] theorem State.accept_script (s : State) (f : List Byte) (rest : List (List Byte)) : (s.accept f rest).script = s.script := rfl
@[simp] theorem State.accept_draws (s : State) (f : List Byte) (rest : List (List Byte)) : (s.accept f rest).draws = s.draws := rfl
@[simp] theorem State.accept_chip (s : State) (f : List Byte) (rest : List (List Byte)) : (s.accept f rest).chip = s.chip.tail := rfl
@[simp] theorem State.accept_moment (s : State) (f : List Byte) (rest : List (List Byte)) : (s.accept f rest).moment = s.moment + 1 := rfl
@[simp] theorem State.accept_convPollMax (s : State) (f : List Byte) (rest : List (List Byte)) : (s.accept f rest).convPollMax = s.convPollMax := rfl
@[simp] theorem State.accept_resetIn (s : State) (f : List Byte) (rest : List (List Byte)) : (s.accept f rest).resetIn = s.resetIn.map fun n => n - 1 := rfl

@[simp] theorem State.begin_command (s : State) : (s.begin).command = s.command := rfl
@[simp] theorem State.begin_response (s : State) : (s.begin).response = s.response := rfl
@[simp] theorem State.begin_seq (s : State) : (s.begin).seq = .busy { phase := 0, buf := [], t := none, k := none } := rfl
@[simp] theorem State.begin_dev (s : State) : (s.begin).dev = s.dev := rfl
@[simp] theorem State.begin_events (s : State) : (s.begin).events = s.events := rfl
@[simp] theorem State.begin_host (s : State) : (s.begin).host = s.host := rfl
@[simp] theorem State.begin_transport (s : State) : (s.begin).transport = s.transport := rfl
@[simp] theorem State.begin_script (s : State) : (s.begin).script = s.script := rfl
@[simp] theorem State.begin_draws (s : State) : (s.begin).draws = s.draws := rfl
@[simp] theorem State.begin_chip (s : State) : (s.begin).chip = s.chip := rfl
@[simp] theorem State.begin_moment (s : State) : (s.begin).moment = s.moment := rfl
@[simp] theorem State.begin_convPollMax (s : State) : (s.begin).convPollMax = s.convPollMax := rfl
@[simp] theorem State.begin_resetIn (s : State) : (s.begin).resetIn = s.resetIn := rfl

@[simp] theorem State.mapBusy_command (s : State) (f : Busy → Busy) : (s.mapBusy f).command = s.command := rfl
@[simp] theorem State.mapBusy_response (s : State) (f : Busy → Busy) : (s.mapBusy f).response = s.response := rfl
@[simp] theorem State.mapBusy_seq (s : State) (f : Busy → Busy) : (s.mapBusy f).seq = s.seq.map f := rfl
@[simp] theorem State.mapBusy_dev (s : State) (f : Busy → Busy) : (s.mapBusy f).dev = s.dev := rfl
@[simp] theorem State.mapBusy_events (s : State) (f : Busy → Busy) : (s.mapBusy f).events = s.events := rfl
@[simp] theorem State.mapBusy_host (s : State) (f : Busy → Busy) : (s.mapBusy f).host = s.host := rfl
@[simp] theorem State.mapBusy_transport (s : State) (f : Busy → Busy) : (s.mapBusy f).transport = s.transport := rfl
@[simp] theorem State.mapBusy_script (s : State) (f : Busy → Busy) : (s.mapBusy f).script = s.script := rfl
@[simp] theorem State.mapBusy_draws (s : State) (f : Busy → Busy) : (s.mapBusy f).draws = s.draws := rfl
@[simp] theorem State.mapBusy_chip (s : State) (f : Busy → Busy) : (s.mapBusy f).chip = s.chip := rfl
@[simp] theorem State.mapBusy_moment (s : State) (f : Busy → Busy) : (s.mapBusy f).moment = s.moment := rfl
@[simp] theorem State.mapBusy_convPollMax (s : State) (f : Busy → Busy) : (s.mapBusy f).convPollMax = s.convPollMax := rfl
@[simp] theorem State.mapBusy_resetIn (s : State) (f : Busy → Busy) : (s.mapBusy f).resetIn = s.resetIn := rfl

@[simp] theorem State.holdT_command (s : State) (v : Byte) : (s.holdT v).command = s.command := rfl
@[simp] theorem State.holdT_response (s : State) (v : Byte) : (s.holdT v).response = s.response := rfl
@[simp] theorem State.holdT_seq (s : State) (v : Byte) : (s.holdT v).seq = s.seq.map fun b => { b with t := some v } := rfl
@[simp] theorem State.holdT_dev (s : State) (v : Byte) : (s.holdT v).dev = s.dev := rfl
@[simp] theorem State.holdT_events (s : State) (v : Byte) : (s.holdT v).events = s.events := rfl
@[simp] theorem State.holdT_host (s : State) (v : Byte) : (s.holdT v).host = s.host := rfl
@[simp] theorem State.holdT_transport (s : State) (v : Byte) : (s.holdT v).transport = s.transport := rfl
@[simp] theorem State.holdT_script (s : State) (v : Byte) : (s.holdT v).script = s.script := rfl
@[simp] theorem State.holdT_draws (s : State) (v : Byte) : (s.holdT v).draws = s.draws := rfl
@[simp] theorem State.holdT_chip (s : State) (v : Byte) : (s.holdT v).chip = s.chip := rfl
@[simp] theorem State.holdT_moment (s : State) (v : Byte) : (s.holdT v).moment = s.moment := rfl
@[simp] theorem State.holdT_convPollMax (s : State) (v : Byte) : (s.holdT v).convPollMax = s.convPollMax := rfl
@[simp] theorem State.holdT_resetIn (s : State) (v : Byte) : (s.holdT v).resetIn = s.resetIn := rfl

@[simp] theorem State.holdK_command (s : State) (n : Nat) : (s.holdK n).command = s.command := rfl
@[simp] theorem State.holdK_response (s : State) (n : Nat) : (s.holdK n).response = s.response := rfl
@[simp] theorem State.holdK_seq (s : State) (n : Nat) : (s.holdK n).seq = s.seq.map fun b => { b with k := some n } := rfl
@[simp] theorem State.holdK_dev (s : State) (n : Nat) : (s.holdK n).dev = s.dev := rfl
@[simp] theorem State.holdK_events (s : State) (n : Nat) : (s.holdK n).events = s.events := rfl
@[simp] theorem State.holdK_host (s : State) (n : Nat) : (s.holdK n).host = s.host := rfl
@[simp] theorem State.holdK_transport (s : State) (n : Nat) : (s.holdK n).transport = s.transport := rfl
@[simp] theorem State.holdK_script (s : State) (n : Nat) : (s.holdK n).script = s.script := rfl
@[simp] theorem State.holdK_draws (s : State) (n : Nat) : (s.holdK n).draws = s.draws := rfl
@[simp] theorem State.holdK_chip (s : State) (n : Nat) : (s.holdK n).chip = s.chip := rfl
@[simp] theorem State.holdK_moment (s : State) (n : Nat) : (s.holdK n).moment = s.moment := rfl
@[simp] theorem State.holdK_convPollMax (s : State) (n : Nat) : (s.holdK n).convPollMax = s.convPollMax := rfl
@[simp] theorem State.holdK_resetIn (s : State) (n : Nat) : (s.holdK n).resetIn = s.resetIn := rfl

@[simp] theorem State.countPoll_command (s : State) : (s.countPoll).command = s.command := rfl
@[simp] theorem State.countPoll_response (s : State) : (s.countPoll).response = s.response := rfl
@[simp] theorem State.countPoll_seq (s : State) : (s.countPoll).seq = s.seq.map fun b => { b with k := b.k.map fun n => n + 1 } := rfl
@[simp] theorem State.countPoll_dev (s : State) : (s.countPoll).dev = s.dev := rfl
@[simp] theorem State.countPoll_events (s : State) : (s.countPoll).events = s.events := rfl
@[simp] theorem State.countPoll_host (s : State) : (s.countPoll).host = s.host := rfl
@[simp] theorem State.countPoll_transport (s : State) : (s.countPoll).transport = s.transport := rfl
@[simp] theorem State.countPoll_script (s : State) : (s.countPoll).script = s.script := rfl
@[simp] theorem State.countPoll_draws (s : State) : (s.countPoll).draws = s.draws := rfl
@[simp] theorem State.countPoll_chip (s : State) : (s.countPoll).chip = s.chip := rfl
@[simp] theorem State.countPoll_moment (s : State) : (s.countPoll).moment = s.moment := rfl
@[simp] theorem State.countPoll_convPollMax (s : State) : (s.countPoll).convPollMax = s.convPollMax := rfl
@[simp] theorem State.countPoll_resetIn (s : State) : (s.countPoll).resetIn = s.resetIn := rfl

@[simp] theorem State.advance_command (s : State) : (s.advance).command = s.command := rfl
@[simp] theorem State.advance_response (s : State) : (s.advance).response = s.response := rfl
@[simp] theorem State.advance_seq (s : State) : (s.advance).seq = s.seq.map fun b => { b with phase := b.phase + 1 } := rfl
@[simp] theorem State.advance_dev (s : State) : (s.advance).dev = s.dev := rfl
@[simp] theorem State.advance_events (s : State) : (s.advance).events = s.events := rfl
@[simp] theorem State.advance_host (s : State) : (s.advance).host = s.host := rfl
@[simp] theorem State.advance_transport (s : State) : (s.advance).transport = s.transport := rfl
@[simp] theorem State.advance_script (s : State) : (s.advance).script = s.script := rfl
@[simp] theorem State.advance_draws (s : State) : (s.advance).draws = s.draws := rfl
@[simp] theorem State.advance_chip (s : State) : (s.advance).chip = s.chip := rfl
@[simp] theorem State.advance_moment (s : State) : (s.advance).moment = s.moment := rfl
@[simp] theorem State.advance_convPollMax (s : State) : (s.advance).convPollMax = s.convPollMax := rfl
@[simp] theorem State.advance_resetIn (s : State) : (s.advance).resetIn = s.resetIn := rfl

@[simp] theorem State.fill_command (s : State) (v : List Byte) : (s.fill v).command = s.command := rfl
@[simp] theorem State.fill_response (s : State) (v : List Byte) : (s.fill v).response = s.response := rfl
@[simp] theorem State.fill_seq (s : State) (v : List Byte) : (s.fill v).seq = s.seq.map fun b => { b with buf := v } := rfl
@[simp] theorem State.fill_dev (s : State) (v : List Byte) : (s.fill v).dev = s.dev := rfl
@[simp] theorem State.fill_events (s : State) (v : List Byte) : (s.fill v).events = s.events := rfl
@[simp] theorem State.fill_host (s : State) (v : List Byte) : (s.fill v).host = s.host := rfl
@[simp] theorem State.fill_transport (s : State) (v : List Byte) : (s.fill v).transport = s.transport := rfl
@[simp] theorem State.fill_script (s : State) (v : List Byte) : (s.fill v).script = s.script := rfl
@[simp] theorem State.fill_draws (s : State) (v : List Byte) : (s.fill v).draws = s.draws := rfl
@[simp] theorem State.fill_chip (s : State) (v : List Byte) : (s.fill v).chip = s.chip := rfl
@[simp] theorem State.fill_moment (s : State) (v : List Byte) : (s.fill v).moment = s.moment := rfl
@[simp] theorem State.fill_convPollMax (s : State) (v : List Byte) : (s.fill v).convPollMax = s.convPollMax := rfl
@[simp] theorem State.fill_resetIn (s : State) (v : List Byte) : (s.fill v).resetIn = s.resetIn := rfl

@[simp] theorem State.issued_command (s : State) (ev : Event) (d : Memory) : (s.issued ev d).command = s.command := rfl
@[simp] theorem State.issued_response (s : State) (ev : Event) (d : Memory) : (s.issued ev d).response = s.response := rfl
@[simp] theorem State.issued_seq (s : State) (ev : Event) (d : Memory) : (s.issued ev d).seq = s.seq := rfl
@[simp] theorem State.issued_dev (s : State) (ev : Event) (d : Memory) : (s.issued ev d).dev = d.writeCells s.chipNow := rfl
@[simp] theorem State.issued_events (s : State) (ev : Event) (d : Memory) : (s.issued ev d).events = s.events ++ [ev] := rfl
@[simp] theorem State.issued_host (s : State) (ev : Event) (d : Memory) : (s.issued ev d).host = s.host := rfl
@[simp] theorem State.issued_transport (s : State) (ev : Event) (d : Memory) : (s.issued ev d).transport = s.transport := rfl
@[simp] theorem State.issued_script (s : State) (ev : Event) (d : Memory) : (s.issued ev d).script = s.script.tail := rfl
@[simp] theorem State.issued_draws (s : State) (ev : Event) (d : Memory) : (s.issued ev d).draws = s.draws + 1 := rfl
@[simp] theorem State.issued_chip (s : State) (ev : Event) (d : Memory) : (s.issued ev d).chip = s.chip.tail := rfl
@[simp] theorem State.issued_moment (s : State) (ev : Event) (d : Memory) : (s.issued ev d).moment = s.moment + 1 := rfl
@[simp] theorem State.issued_convPollMax (s : State) (ev : Event) (d : Memory) : (s.issued ev d).convPollMax = s.convPollMax := rfl
@[simp] theorem State.issued_resetIn (s : State) (ev : Event) (d : Memory) : (s.issued ev d).resetIn = s.resetIn.map fun n => n - 1 := rfl

end Sys2Proof.Machine
end

