-- ==== Sys2Proof/Laws/Ops.lean ====
section
/-! SUPPORT. What each shared operation can do, said once: an action, the end of an operation, the two transactions, the
read-modify-write and the poll. -/

namespace Sys2Proof.Machine

/-! ### The device's coming answers -/

@[simp] theorem answerAt_begin (s : State) (j : Nat) : s.begin.answerAt j = s.answerAt j := rfl
@[simp] theorem answerAt_holdT (s : State) (v : Byte) (j : Nat) : (s.holdT v).answerAt j = s.answerAt j := rfl
@[simp] theorem answerAt_holdK (s : State) (n j : Nat) : (s.holdK n).answerAt j = s.answerAt j := rfl
@[simp] theorem answerAt_countPoll (s : State) (j : Nat) : s.countPoll.answerAt j = s.answerAt j := rfl
@[simp] theorem answerAt_advance (s : State) (j : Nat) : s.advance.answerAt j = s.answerAt j := rfl
@[simp] theorem answerAt_fill (s : State) (v : List Byte) (j : Nat) : (s.fill v).answerAt j = s.answerAt j := rfl
@[simp] theorem answerAt_tick (s : State) (j : Nat) : s.tick.answerAt j = s.answerAt j := rfl
@[simp] theorem answerAt_accept (s : State) (f : List Byte) (r : List (List Byte)) (j : Nat) :
    (s.accept f r).answerAt j = s.answerAt j := rfl

/-- After a transaction the device's next answer is the one that came second before it. -/
@[simp] theorem answerAt_issued (s : State) (ev : Event) (d : Memory) (j : Nat) :
    (s.issued ev d).answerAt j = s.answerAt (j + 1) := by
  simp only [State.answerAt, State.issued_script, State.issued_transport, State.issued_draws, List.getElem?_tail]
  rw [Nat.add_right_comm s.draws 1 j, Nat.add_assoc]

@[simp] theorem landedAt_begin (s : State) (j : Nat) : s.begin.landedAt j = s.landedAt j := rfl
@[simp] theorem landedAt_holdT (s : State) (v : Byte) (j : Nat) : (s.holdT v).landedAt j = s.landedAt j := rfl
@[simp] theorem landedAt_advance (s : State) (j : Nat) : s.advance.landedAt j = s.landedAt j := rfl
@[simp] theorem landedAt_fill (s : State) (v : List Byte) (j : Nat) : (s.fill v).landedAt j = s.landedAt j := rfl
@[simp] theorem landedAt_issued (s : State) (ev : Event) (d : Memory) (j : Nat) :
    (s.issued ev d).landedAt j = s.landedAt (j + 1) := by simp [State.landedAt]

/-- SIM changes nothing at a write it is made to NACK (R84). -/
theorem landedAt_sim {s : State} (h : s.transport = .sim) {j : Nat} (hn : (s.answerAt j).reply = .nack) :
    s.landedAt j = 0 := if_pos ⟨h, hn⟩

/-- Elsewhere, and of a write that never returns, the answer says how many bytes land. -/
theorem landedAt_answer {s : State} {j : Nat} (h : s.transport ≠ .sim ∨ (s.answerAt j).reply ≠ .nack) :
    s.landedAt j = (s.answerAt j).landed := if_neg fun ⟨a, b⟩ => h.elim (· a) (· b)

@[simp] theorem dataAt_begin (s : State) (addr i : Nat) : s.begin.dataAt addr i = s.dataAt addr i := rfl
@[simp] theorem dataBytes_begin (s : State) (addr n : Nat) : s.begin.dataBytes addr n = s.dataBytes addr n := rfl
@[simp] theorem dataBytes_length (s : State) (addr n : Nat) : (s.dataBytes addr n).length = n := by
  simp [State.dataBytes]

/-! ### The chip's own changes -/

@[simp] theorem chipNow_begin (s : State) : s.begin.chipNow = s.chipNow := rfl

/-- Whatever the chip changes of its own, the device memory keeps its form. -/
theorem tick_wf (s : State) : s.tick.dev.wf = s.dev.wf := Memory.wf_writeCells _ _

@[simp] theorem chipAt_begin (s : State) (j : Nat) : s.begin.chipAt j = s.chipAt j := rfl

/-- After an action the chip's next changes are the ones that came second before it. -/
@[simp] theorem chipAt_tick (s : State) (j : Nat) : s.tick.chipAt j = s.chipAt (j + 1) := by
  simp only [State.chipAt, State.tick_chip, State.tick_transport, State.tick_moment, List.getElem?_tail]
  rw [Nat.add_right_comm s.moment 1 j, Nat.add_assoc]

/-- A quiet chip changes nothing at any coming action. -/
theorem State.Quiet.stillFor {s : State} (h : s.Quiet) (n : Nat) : s.StillFor n := by
  intro j _
  unfold State.chipAt
  cases hc : s.chip[j]? with
  | none => simp [h.sim, Transport.chip]
  | some c => simpa using h.chip c (List.mem_of_getElem? hc)

/-- A quiet chip changes nothing at the next action. -/
theorem State.Quiet.chipNow {s : State} (h : s.Quiet) : s.chipNow = [] := h.stillFor 1 0 (by decide)

/-- A chip that is still for one action more is still for the rest after it. -/
theorem State.StillFor.tick {s : State} {n : Nat} (h : s.StillFor (n + 1)) : s.tick.StillFor n := fun j hj => by
  rw [chipAt_tick]; exact h (j + 1) (by omega)
theorem State.StillFor.chipNow {s : State} {n : Nat} (h : s.StillFor (n + 1)) : s.chipNow = [] := h 0 (by omega)

/-- On a chip that is still a transaction leaves the device registers as it made them. -/
theorem State.StillFor.issued_dev {s : State} {n : Nat} (h : s.StillFor (n + 1)) (ev : Event) (d : Memory) :
    (s.issued ev d).dev = d := by simp [h.chipNow]
theorem State.StillFor.issued {s : State} {n : Nat} (h : s.StillFor (n + 1)) (ev : Event) (d : Memory) :
    (s.issued ev d).StillFor n := fun j hj => h.tick j hj

/-- A chip that is quiet is quiet in any state with the same device and at most the same explicit changes left. -/
theorem State.Quiet.mono {s t : State} (h : s.Quiet) (ht : t.transport = s.transport) (hc : ∀ c ∈ t.chip, c ∈ s.chip) :
    t.Quiet := ⟨ht.trans h.sim, fun c m => h.chip c (hc c m)⟩

theorem State.Quiet.tick {s : State} (h : s.Quiet) : s.tick.Quiet := h.mono rfl fun _ => List.mem_of_mem_tail
theorem State.Quiet.issued {s : State} (h : s.Quiet) (ev : Event) (d : Memory) : (s.issued ev d).Quiet :=
  h.mono rfl fun _ => List.mem_of_mem_tail
theorem State.Quiet.accept {s : State} (h : s.Quiet) (f : List Byte) (r : List (List Byte)) : (s.accept f r).Quiet :=
  h.mono rfl fun _ => List.mem_of_mem_tail

/-- On a quiet chip an action leaves the device registers as they are. -/
theorem State.Quiet.tick_dev {s : State} (h : s.Quiet) : s.tick.dev = s.dev := by simp [h.chipNow]

/-- On a quiet chip a transaction leaves the device registers as it made them. -/
theorem State.Quiet.issued_dev {s : State} (h : s.Quiet) (ev : Event) (d : Memory) : (s.issued ev d).dev = d := by
  simp [h.chipNow]

/-! ### The end of an operation -/

@[simp] theorem resetDue_iff (s : State) : s.resetDue = true ↔ s.resetIn = some 0 := by simp [State.resetDue]

theorem resetDue_of_none {s : State} (h : s.resetIn = none) : s.resetDue = false := by simp [State.resetDue, h]

/-- With no reset asserted an operation ends IDLE with its response, which is one action. -/
theorem respond_none (r : Response) {s : State} (h : s.resetIn = none) :
    respond r s = { s with response := some r, seq := .idle }.tick := by
  simp [respond, resetDue_of_none h]

/-- An operation ends with its response, or is abandoned by a reset that is due. -/
theorem respond_cases {P : State → Prop} (r : Response) (s : State)
    (reset : s.resetIn = some 0 → P s.blockReset)
    (ends : s.resetIn ≠ some 0 → P { s with response := some r, seq := .idle }.tick) : P (respond r s) := by
  unfold respond
  split
  next hd => exact reset ((resetDue_iff s).1 hd)
  next hd => exact ends (mt (resetDue_iff s).2 hd)

/-- On a chip that is still the end of an operation leaves the device registers as they are. -/
theorem State.StillFor.respond_dev {s : State} {n : Nat} (h : s.StillFor (n + 1)) (r : Response) :
    (respond r s).dev = s.dev :=
  respond_cases (P := fun t => t.dev = s.dev) r s (fun _ => rfl) fun _ => by
    show s.dev.writeCells s.chipNow = s.dev
    rw [h.chipNow]; rfl

/-- On a quiet chip the end of an operation leaves the device registers as they are. -/
theorem State.Quiet.respond_dev {s : State} (h : s.Quiet) (r : Response) : (respond r s).dev = s.dev :=
  (h.stillFor 1).respond_dev r

/-! ### The transactions -/

/-- Everything a read transaction can do. -/
theorem memRead_cases {P : State → Prop} (addr n : Nat) (s : State) (k : (Nat → Byte) → State → State)
    (reset : s.resetIn = some 0 → P s.blockReset)
    (ack : s.resetIn ≠ some 0 → (s.answerAt 0).reply = .ack → P (k (s.dataAt addr)
      ((s.issued (.read addr n .ack (s.dataBytes addr n)) s.dev).fill (s.dataBytes addr n)).advance))
    (nack : s.resetIn ≠ some 0 → (s.answerAt 0).reply = .nack →
      P (raise .busError (s.issued (.read addr n .nack []) s.dev)))
    (silent : s.resetIn ≠ some 0 → (s.answerAt 0).reply = .silent →
      P (s.issued (.read addr n .silent []) s.dev)) :
    P (memRead addr n s k) := by
  unfold memRead
  split
  next hd => exact reset ((resetDue_iff s).1 hd)
  next hd =>
    have h : s.resetIn ≠ some 0 := mt (resetDue_iff s).2 hd
    split
    next ha => exact ack h ha
    next ha => exact nack h ha
    next ha => exact silent h ha

/-- Everything a write transaction can do. -/
theorem memWrite_cases {P : State → Prop} (addr : Nat) (v : List Byte) (s : State) (k : State → State)
    (reset : s.resetIn = some 0 → P s.blockReset)
    (ack : s.resetIn ≠ some 0 → (s.answerAt 0).reply = .ack →
      P (k (s.issued (.write addr v .ack) (s.dev.writeBytes addr v)).advance))
    (nack : s.resetIn ≠ some 0 → (s.answerAt 0).reply = .nack → P (raise .busError
      (s.issued (.write addr v .nack) (s.dev.writeBytes addr (v.take (s.landedAt 0))))))
    (silent : s.resetIn ≠ some 0 → (s.answerAt 0).reply = .silent →
      P (s.issued (.write addr v .silent) (s.dev.writeBytes addr (v.take (s.landedAt 0))))) :
    P (memWrite addr v s k) := by
  unfold memWrite
  split
  next hd => exact reset ((resetDue_iff s).1 hd)
  next hd =>
    have h : s.resetIn ≠ some 0 := mt (resetDue_iff s).2 hd
    split
    next ha => exact ack h ha
    next ha => exact nack h ha
    next ha => exact silent h ha

/-- An acknowledged read goes on with the bytes read. -/
theorem memRead_ack (addr n : Nat) {s : State} (k : (Nat → Byte) → State → State) (h : s.resetIn = none)
    (ha : (s.answerAt 0).reply = .ack) :
    memRead addr n s k = k (s.dataAt addr)
      ((s.issued (.read addr n .ack (s.dataBytes addr n)) s.dev).fill (s.dataBytes addr n)).advance := by
  simp [memRead, resetDue_of_none h, ha]

/-- A read that is not acknowledged ends the operation with BUS_ERROR. -/
theorem memRead_nack (addr n : Nat) {s : State} (k : (Nat → Byte) → State → State) (h : s.resetIn = none)
    (ha : (s.answerAt 0).reply = .nack) :
    memRead addr n s k = raise .busError (s.issued (.read addr n .nack []) s.dev) := by
  simp [memRead, resetDue_of_none h, ha]

/-- A read that never returns leaves the block as it stands. -/
theorem memRead_silent (addr n : Nat) {s : State} (k : (Nat → Byte) → State → State) (h : s.resetIn = none)
    (ha : (s.answerAt 0).reply = .silent) :
    memRead addr n s k = s.issued (.read addr n .silent []) s.dev := by
  simp [memRead, resetDue_of_none h, ha]

/-- An acknowledged write goes on. -/
theorem memWrite_ack (addr : Nat) (v : List Byte) {s : State} (k : State → State) (h : s.resetIn = none)
    (ha : (s.answerAt 0).reply = .ack) :
    memWrite addr v s k = k (s.issued (.write addr v .ack) (s.dev.writeBytes addr v)).advance := by
  simp [memWrite, resetDue_of_none h, ha]

/-- A write that is not acknowledged ends the operation with BUS_ERROR. -/
theorem memWrite_nack (addr : Nat) (v : List Byte) {s : State} (k : State → State) (h : s.resetIn = none)
    (ha : (s.answerAt 0).reply = .nack) :
    memWrite addr v s k = raise .busError
      (s.issued (.write addr v .nack) (s.dev.writeBytes addr (v.take (s.landedAt 0)))) := by
  simp [memWrite, resetDue_of_none h, ha]

/-- A write that never returns leaves the block as it stands. -/
theorem memWrite_silent (addr : Nat) (v : List Byte) {s : State} (k : State → State) (h : s.resetIn = none)
    (ha : (s.answerAt 0).reply = .silent) :
    memWrite addr v s k = s.issued (.write addr v .silent) (s.dev.writeBytes addr (v.take (s.landedAt 0))) := by
  simp [memWrite, resetDue_of_none h, ha]

/-- A reset that is due comes before a read. -/
theorem memRead_reset (addr n : Nat) {s : State} (k : (Nat → Byte) → State → State) (h : s.resetIn = some 0) :
    memRead addr n s k = s.blockReset := by
  simp [memRead, State.resetDue, h]

/-- A reset that is due comes before a write. -/
theorem memWrite_reset (addr : Nat) (v : List Byte) {s : State} (k : State → State) (h : s.resetIn = some 0) :
    memWrite addr v s k = s.blockReset := by
  simp [memWrite, State.resetDue, h]

/-- The state a read-modify-write's write is issued in. -/
def rmwRead (addr : Nat) (s : State) : State :=
  (((s.issued (.read addr 1 .ack (s.dataBytes addr 1)) s.dev).fill (s.dataBytes addr 1)).advance).holdT (s.dataAt addr 0)

/-- Everything a read-modify-write can do. -/
theorem rmw_cases {P : State → Prop} (addr : Nat) (clr set : Byte) (s : State) (k : Byte → State → State)
    (resetRead : s.resetIn = some 0 → P s.blockReset)
    (nackRead : (s.answerAt 0).reply = .nack → P (raise .busError (s.issued (.read addr 1 .nack []) s.dev)))
    (silentRead : (s.answerAt 0).reply = .silent → P (s.issued (.read addr 1 .silent []) s.dev))
    (resetWrite : (rmwRead addr s).resetIn = some 0 → P (rmwRead addr s).blockReset)
    (ack : (s.answerAt 0).reply = .ack → (s.answerAt 1).reply = .ack →
      P (k (s.dataAt addr 0) ((rmwRead addr s).issued (.write addr [rmwByte (s.dataAt addr 0) clr set] .ack)
        ((rmwRead addr s).dev.writeBytes addr [rmwByte (s.dataAt addr 0) clr set])).advance))
    (nackWrite : (s.answerAt 0).reply = .ack → (s.answerAt 1).reply = .nack →
      P (raise .busError ((rmwRead addr s).issued (.write addr [rmwByte (s.dataAt addr 0) clr set] .nack)
        ((rmwRead addr s).dev.writeBytes addr
          ([rmwByte (s.dataAt addr 0) clr set].take ((rmwRead addr s).landedAt 0))))))
    (silentWrite : (s.answerAt 0).reply = .ack → (s.answerAt 1).reply = .silent →
      P ((rmwRead addr s).issued (.write addr [rmwByte (s.dataAt addr 0) clr set] .silent)
        ((rmwRead addr s).dev.writeBytes addr
          ([rmwByte (s.dataAt addr 0) clr set].take ((rmwRead addr s).landedAt 0))))) :
    P (rmw addr clr set s k) := by
  refine memRead_cases addr 1 s _ resetRead (fun _ ha => ?_) (fun _ => nackRead) (fun _ => silentRead)
  refine memWrite_cases addr _ _ _ resetWrite (fun _ hb => ack ha ?_) (fun _ hb => nackWrite ha ?_)
    (fun _ hb => silentWrite ha ?_)
  all_goals simpa using hb

/-- A read-modify-write whose two transactions are acknowledged. -/
theorem rmw_ack (addr : Nat) (clr set : Byte) {s : State} (k : Byte → State → State) (h : s.resetIn = none)
    (h0 : (s.answerAt 0).reply = .ack) (h1 : (s.answerAt 1).reply = .ack) :
    rmw addr clr set s k = k (s.dataAt addr 0)
      ((rmwRead addr s).issued (.write addr [rmwByte (s.dataAt addr 0) clr set] .ack)
        ((rmwRead addr s).dev.writeBytes addr [rmwByte (s.dataAt addr 0) clr set])).advance := by
  unfold rmw
  rw [memRead_ack addr 1 _ h h0, memWrite_ack addr _ _ (by simp [h]) (by simpa using h1)]
  rfl

/-- A read-modify-write whose write is not acknowledged. -/
theorem rmw_nackWrite (addr : Nat) (clr set : Byte) {s : State} (k : Byte → State → State) (h : s.resetIn = none)
    (h0 : (s.answerAt 0).reply = .ack) (h1 : (s.answerAt 1).reply = .nack) :
    rmw addr clr set s k = raise .busError
      ((rmwRead addr s).issued (.write addr [rmwByte (s.dataAt addr 0) clr set] .nack)
        ((rmwRead addr s).dev.writeBytes addr
          ([rmwByte (s.dataAt addr 0) clr set].take ((rmwRead addr s).landedAt 0)))) := by
  unfold rmw
  rw [memRead_ack addr 1 _ h h0, memWrite_nack addr _ _ (by simp [h]) (by simpa using h1)]
  rfl

/-- A read-modify-write whose read is not acknowledged. -/
theorem rmw_nackRead (addr : Nat) (clr set : Byte) {s : State} (k : Byte → State → State) (h : s.resetIn = none)
    (h0 : (s.answerAt 0).reply = .nack) :
    rmw addr clr set s k = raise .busError (s.issued (.read addr 1 .nack []) s.dev) :=
  memRead_nack addr 1 _ h h0

/-! ### The poll of FORCECONV -/

/-- The state after an acknowledged poll read. -/
def pollRead (s : State) : State :=
  (((s.issued (.read 0x0E 1 .ack (s.dataBytes 0x0E 1)) s.dev).fill (s.dataBytes 0x0E 1)).advance).countPoll

/-- Everything the poll can do, as one induction: `I n s` holds of every state `s` with `n` poll reads left. -/
theorem pollConv_induction {P : State → Prop} {I : Nat → State → Prop}
    (timeout : ∀ s, I 0 s → P (raise .convTimeout s))
    (reset : ∀ n s, I (n + 1) s → s.resetIn = some 0 → P s.blockReset)
    (nack : ∀ n s, I (n + 1) s → s.resetIn ≠ some 0 → (s.answerAt 0).reply = .nack →
      P (raise .busError (s.issued (.read 0x0E 1 .nack []) s.dev)))
    (silent : ∀ n s, I (n + 1) s → s.resetIn ≠ some 0 → (s.answerAt 0).reply = .silent →
      P (s.issued (.read 0x0E 1 .silent []) s.dev))
    (done : ∀ n s, I (n + 1) s → s.resetIn ≠ some 0 → (s.answerAt 0).reply = .ack →
      conv (s.dataAt 0x0E 0) = false → P (finish [] (pollRead s)))
    (again : ∀ n s, I (n + 1) s → s.resetIn ≠ some 0 → (s.answerAt 0).reply = .ack →
      conv (s.dataAt 0x0E 0) = true → I n (pollRead s)) (n : Nat) (s : State) (h : I n s) : P (pollConv n s) := by
  induction n generalizing s with
  | zero => exact timeout s h
  | succ n ih =>
    refine memRead_cases 0x0E 1 s _ (reset n s h) (fun hd ha => ?_) (nack n s h) (silent n s h)
    split
    next hc => exact ih _ (again n s h hd ha hc)
    next hc => exact done n s h hd ha (Bool.eq_false_iff.2 hc)

end Sys2Proof.Machine
end

