-- ==== Sys2Proof/Laws/PerInstr.lean ====
section
/-! SUPPORT. Per operation: the shape of its frame and its response against its row of the opcode map (30_encoding.md R105). -/

namespace Sys2Proof.Laws.FrameShape

/-- The operation's opcode has a row, its operand bytes are as many as the row says, and its frame begins with the opcode. -/
def Statement (i : Instr) : Prop :=
  ∃ row, rowOf i.opcode = some row ∧ row.opcode = i.opcode ∧ i.operands.length = row.format.operandBytes ∧
    (encode i).length = 1 + row.format.operandBytes ∧ i.resultBytes = row.response.resultBytes

theorem bcdenc (a : Byte) : Statement (.bcdenc a) := ⟨_, rfl, rfl, rfl, rfl, rfl⟩
theorem bcddec (a : Byte) : Statement (.bcddec a) := ⟨_, rfl, rfl, rfl, rfl, rfl⟩
theorem hrenc (a : Byte) : Statement (.hrenc a) := ⟨_, rfl, rfl, rfl, rfl, rfl⟩
theorem hrdec (a : Byte) : Statement (.hrdec a) := ⟨_, rfl, rfl, rfl, rfl, rfl⟩
theorem dow (a : Year) (b c : Byte) : Statement (.dow a b c) := ⟨_, rfl, rfl, rfl, rfl, rfl⟩
theorem dtenc (a : Year) (b c d e f : Byte) : Statement (.dtenc a b c d e f) := ⟨_, rfl, rfl, rfl, rfl, rfl⟩
theorem dtdec (a b c d e f g : Byte) : Statement (.dtdec a b c d e f g) := ⟨_, rfl, rfl, rfl, rfl, rfl⟩
theorem tmpdec (a b : Byte) : Statement (.tmpdec a b) := ⟨_, rfl, rfl, rfl, rfl, rfl⟩
theorem a1enc (a b c d e : Byte) : Statement (.a1enc a b c d e) := ⟨_, rfl, rfl, rfl, rfl, rfl⟩
theorem a1dec (a b c d : Byte) : Statement (.a1dec a b c d) := ⟨_, rfl, rfl, rfl, rfl, rfl⟩
theorem a2enc (a b c d : Byte) : Statement (.a2enc a b c d) := ⟨_, rfl, rfl, rfl, rfl, rfl⟩
theorem a2dec (a b c : Byte) : Statement (.a2dec a b c) := ⟨_, rfl, rfl, rfl, rfl, rfl⟩
theorem getdt : Statement .getdt := ⟨_, rfl, rfl, rfl, rfl, rfl⟩
theorem setdt (a : Year) (b c d e f : Byte) : Statement (.setdt a b c d e f) := ⟨_, rfl, rfl, rfl, rfl, rfl⟩
theorem gettmp : Statement .gettmp := ⟨_, rfl, rfl, rfl, rfl, rfl⟩
theorem geta1 : Statement .geta1 := ⟨_, rfl, rfl, rfl, rfl, rfl⟩
theorem seta1 (a b c d e : Byte) : Statement (.seta1 a b c d e) := ⟨_, rfl, rfl, rfl, rfl, rfl⟩
theorem geta2 : Statement .geta2 := ⟨_, rfl, rfl, rfl, rfl, rfl⟩
theorem seta2 (a b c d : Byte) : Statement (.seta2 a b c d) := ⟨_, rfl, rfl, rfl, rfl, rfl⟩
theorem getvalid : Statement .getvalid := ⟨_, rfl, rfl, rfl, rfl, rfl⟩
theorem getrun : Statement .getrun := ⟨_, rfl, rfl, rfl, rfl, rfl⟩
theorem setrun (a : Byte) : Statement (.setrun a) := ⟨_, rfl, rfl, rfl, rfl, rfl⟩
theorem set32k (a : Byte) : Statement (.set32k a) := ⟨_, rfl, rfl, rfl, rfl, rfl⟩
theorem sqwmode (a : Byte) : Statement (.sqwmode a) := ⟨_, rfl, rfl, rfl, rfl, rfl⟩
theorem sqwrate (a : Byte) : Statement (.sqwrate a) := ⟨_, rfl, rfl, rfl, rfl, rfl⟩
theorem latchaf : Statement .latchaf := ⟨_, rfl, rfl, rfl, rfl, rfl⟩
theorem forceconv (a : Byte) : Statement (.forceconv a) := ⟨_, rfl, rfl, rfl, rfl, rfl⟩
theorem getage : Statement .getage := ⟨_, rfl, rfl, rfl, rfl, rfl⟩
theorem setage (a : Byte) : Statement (.setage a) := ⟨_, rfl, rfl, rfl, rfl, rfl⟩

end Sys2Proof.Laws.FrameShape
end

