-- ==== Sys2Proof/Tests/Slice0.lean ====
section
/-! SUPPORT. Tests of the model, and the witnesses of the statements. The expected results are the spec's: the frames are
written out from the opcode map and the layouts of 30_encoding.md, and the results of single steps are the worked
examples and corner cases of the operation rules of 41_bcd_hour.md to 45_control_status.md. -/

namespace Sys2Proof.Tests

open Sys2Proof Sys2Proof.Machine

/-! ### Test states -/

/-- The simulator device of 20_memory.md R73 holding zeros but for these registers, with CONV_POLL_MAX 3 and these explicit
answers to the coming transactions. -/
def sim (cells : List Host.Cell) (script : List Answer) : State :=
  { State.reset with
    dev := Memory.writeCells ((List.range 19).map fun a => (a, 0#8)) cells
    transport := .sim
    script := script
    convPollMax := 3 }

/-- A transaction that SIM answers, one that is not acknowledged, and one that never returns. -/
def acked : Answer := { reply := .ack, data := [], landed := 0 }
def nacked : Answer := { reply := .nack, data := [], landed := 0 }
def silent : Answer := { reply := .silent, data := [], landed := 0 }
def reads (b : Byte) : Answer := { reply := .ack, data := [b], landed := 0 }

/-- A device that is not SIM and changes nothing of its own at the coming actions. -/
def still (s : State) : State := { s with transport := .oracle, chip := List.replicate 9 [] }

/-- The state an outcome is, where it is one. -/
def next : Host.Outcome State Fault Refusal → State
  | .next t => t
  | _ => State.reset

/-- The state after one step of a block whose host presents this frame. -/
def ran (frame : List Byte) (s : State) : State := next (step { s with host := [frame] })

/-- The step ended IDLE with this status and these results, after exactly these transactions. -/
def answers (frame : List Byte) (s : State) (st : Status) (results : List Byte) (events : List Event) : Bool :=
  decide ((ran frame s).seq = .idle) &&
    decide ((ran frame s).response = some { status := st, results := results }) && decide ((ran frame s).events = events)

/-! ### WellFormed: for each check an operation it refuses -/

theorem test_ill_formed_hour_above_23 : Instr.wellFormed (.hrenc 24) = false := by decide
theorem test_ill_formed_year_below_2000 : Instr.wellFormed (.dow 1999 1 1) = false := by decide
theorem test_ill_formed_year_above_2199 : Instr.wellFormed (.dow 2200 1 1) = false := by decide
theorem test_ill_formed_month_0 : Instr.wellFormed (.dow 2024 0 1) = false := by decide
theorem test_ill_formed_month_13 : Instr.wellFormed (.dow 2024 13 1) = false := by decide
theorem test_ill_formed_day_0 : Instr.wellFormed (.dow 2024 1 0) = false := by decide
theorem test_ill_formed_day_32 : Instr.wellFormed (.dow 2024 1 32) = false := by decide
theorem test_ill_formed_dtenc_hour_24 : Instr.wellFormed (.dtenc 2024 1 1 24 0 0) = false := by decide
theorem test_ill_formed_dtenc_minute_60 : Instr.wellFormed (.dtenc 2024 1 1 0 60 0) = false := by decide
theorem test_ill_formed_setdt_second_60 : Instr.wellFormed (.setdt 2024 1 1 0 0 60) = false := by decide
theorem test_ill_formed_setdt_day_32 : Instr.wellFormed (.setdt 2024 1 32 0 0 0) = false := by decide
theorem test_ill_formed_alarm_one_second_60 : Instr.wellFormed (.a1enc 60 0 0 1 0) = false := by decide
theorem test_ill_formed_alarm_one_minute_60 : Instr.wellFormed (.a1enc 0 60 0 1 0) = false := by decide
theorem test_ill_formed_alarm_one_hour_24 : Instr.wellFormed (.seta1 0 0 24 1 0) = false := by decide
theorem test_ill_formed_alarm_one_dayof_0 : Instr.wellFormed (.seta1 0 0 0 0 0) = false := by decide
theorem test_ill_formed_alarm_two_minute_60 : Instr.wellFormed (.a2enc 60 0 1 0) = false := by decide
theorem test_ill_formed_alarm_two_hour_24 : Instr.wellFormed (.a2enc 0 24 1 0) = false := by decide
theorem test_ill_formed_alarm_two_dayof_32 : Instr.wellFormed (.seta2 0 0 32 0) = false := by decide
theorem test_ill_formed_run_2 : Instr.wellFormed (.setrun 2) = false := by decide
theorem test_ill_formed_enable_2 : Instr.wellFormed (.set32k 2) = false := by decide
theorem test_ill_formed_wait_2 : Instr.wellFormed (.forceconv 2) = false := by decide
theorem test_ill_formed_mode_6 : Instr.wellFormed (.sqwmode 6) = false := by decide
theorem test_ill_formed_rate_4 : Instr.wellFormed (.sqwrate 4) = false := by decide
theorem test_well_formed_day_past_the_month : Instr.wellFormed (.dow 2023 2 31) = true := by decide
theorem test_well_formed_flags_are_not_checked : Instr.wellFormed (.a1enc 59 59 23 31 0xFF) = true := by decide

/-! ### Decode: one frame per operation, written out from R105 and R102 -/

theorem test_decode_bcdenc : decode [0x01, 0x2D] = .ok (.bcdenc 45) := by decide
theorem test_decode_bcddec : decode [0x02, 0x59] = .ok (.bcddec 0x59) := by decide
theorem test_decode_hrenc : decode [0x03, 0x0D] = .ok (.hrenc 13) := by decide
theorem test_decode_hrdec : decode [0x04, 0x61] = .ok (.hrdec 0x61) := by decide
theorem test_decode_dow : decode [0x05, 0xE8, 0x07, 0x01, 0x02] = .ok (.dow 2024 1 2) := by decide
theorem test_decode_dtenc : decode [0x06, 0x97, 0x08, 0x0C, 0x1F, 0x17, 0x3B, 0x3A] =
    .ok (.dtenc 2199 12 31 23 59 58) := by decide
theorem test_decode_dtdec : decode [0x07, 0x30, 0x45, 0x13, 0x01, 0x02, 0x03, 0x24] =
    .ok (.dtdec 0x30 0x45 0x13 0x01 0x02 0x03 0x24) := by decide
theorem test_decode_tmpdec : decode [0x08, 0x19, 0x40] = .ok (.tmpdec 0x19 0x40) := by decide
theorem test_decode_a1enc : decode [0x09, 0x1E, 0x0F, 0x06, 0x01, 0x1F] = .ok (.a1enc 30 15 6 1 0x1F) := by decide
theorem test_decode_a1dec : decode [0x0A, 0x30, 0x15, 0x06, 0x41] = .ok (.a1dec 0x30 0x15 0x06 0x41) := by decide
theorem test_decode_a2enc : decode [0x0B, 0x00, 0x07, 0x05, 0x0B] = .ok (.a2enc 0 7 5 0x0B) := by decide
theorem test_decode_a2dec : decode [0x0C, 0x30, 0x08, 0x01] = .ok (.a2dec 0x30 0x08 0x01) := by decide
theorem test_decode_getdt : decode [0x10] = .ok .getdt := by decide
theorem test_decode_setdt : decode [0x11, 0xE8, 0x07, 0x01, 0x02, 0x0D, 0x2D, 0x1E] =
    .ok (.setdt 2024 1 2 13 45 30) := by decide
theorem test_decode_gettmp : decode [0x12] = .ok .gettmp := by decide
theorem test_decode_geta1 : decode [0x13] = .ok .geta1 := by decide
theorem test_decode_seta1 : decode [0x14, 0x1E, 0x0F, 0x06, 0x01, 0x1F] = .ok (.seta1 30 15 6 1 0x1F) := by decide
theorem test_decode_geta2 : decode [0x15] = .ok .geta2 := by decide
theorem test_decode_seta2 : decode [0x16, 0x00, 0x07, 0x05, 0x0B] = .ok (.seta2 0 7 5 0x0B) := by decide
theorem test_decode_getvalid : decode [0x17] = .ok .getvalid := by decide
theorem test_decode_getrun : decode [0x18] = .ok .getrun := by decide
theorem test_decode_setrun : decode [0x19, 0x01] = .ok (.setrun 1) := by decide
theorem test_decode_set32k : decode [0x1A, 0x01] = .ok (.set32k 1) := by decide
theorem test_decode_sqwmode : decode [0x1B, 0x03] = .ok (.sqwmode 3) := by decide
theorem test_decode_sqwrate : decode [0x1C, 0x02] = .ok (.sqwrate 2) := by decide
theorem test_decode_latchaf : decode [0x1D] = .ok .latchaf := by decide
theorem test_decode_forceconv : decode [0x1E, 0x01] = .ok (.forceconv 1) := by decide
theorem test_decode_getage : decode [0x1F] = .ok .getage := by decide
theorem test_decode_setage : decode [0x20, 0xFB] = .ok (.setage 0xFB) := by decide
theorem test_reject_no_byte : decode [] = .error .emptyFrame := by decide
theorem test_reject_opcode_00 : decode [0x00] = .error (.unassignedOpcode 0x00) := by decide
theorem test_reject_opcode_0D : decode [0x0D, 0x01] = .error (.unassignedOpcode 0x0D) := by decide
theorem test_reject_opcode_0F : decode [0x0F] = .error (.unassignedOpcode 0x0F) := by decide
theorem test_reject_opcode_21 : decode [0x21, 0x00] = .error (.unassignedOpcode 0x21) := by decide
theorem test_reject_opcode_FF : decode [0xFF] = .error (.unassignedOpcode 0xFF) := by decide
theorem test_reject_one_byte_short : decode [0x01] = .error (.wrongLength 0x01 1) := by decide
theorem test_reject_one_byte_long : decode [0x10, 0x00] = .error (.wrongLength 0x10 2) := by decide
theorem test_table_word_bcdenc : decodeTableWord 8 0x01 = some (.bcdenc 0) := by decide
theorem test_table_word_setdt : decodeTableWord 64 0x1E2D0D0201_07E811 = some (.setdt 2024 1 2 13 45 30) := by decide
theorem test_table_word_unassigned : decodeTableWord 8 0x0D = none := by decide
theorem test_fetch_word_runs_next :
    (next (step (State.reset.withFetchWord 16 0x2D01))).response = some { status := .ok, results := [0x45] } := by decide

/-! ### One step of each operation -/

theorem test_bcdenc_example : answers [0x01, 45] (sim [] []) .ok [0x45] [] = true := by decide
theorem test_bcdenc_truncates_tens : answers [0x01, 160] (sim [] []) .ok [0x00] [] = true := by decide
theorem test_bcddec_example : answers [0x02, 0x59] (sim [] []) .ok [59] [] = true := by decide
theorem test_bcddec_corrupt_value : answers [0x02, 0xA0] (sim [] []) .corruptData [100] [] = true := by decide
theorem test_hrenc_23 : answers [0x03, 23] (sim [] []) .ok [0x23] [] = true := by decide
theorem test_hrenc_24 : answers [0x03, 24] (sim [] []) .argRange [] [] = true := by decide
theorem test_hrdec_12_pm_is_24 : answers [0x04, 0x72] (sim [] []) .ok [24] [] = true := by decide
theorem test_hrdec_24_hour_bit_7 : answers [0x04, 0x95] (sim [] []) .ok [95] [] = true := by decide
theorem test_dow_example : answers [0x05, 0xE8, 0x07, 1, 1] (sim [] []) .ok [1] [] = true := by decide
theorem test_dow_2100_is_no_leap_year : answers [0x05, 0x34, 0x08, 3, 1] (sim [] []) .ok [1] [] = true := by decide
theorem test_dtenc_example :
    answers [0x06, 0xE8, 0x07, 1, 1, 13, 45, 30] (sim [] []) .ok [0x30, 0x45, 0x13, 0x01, 0x01, 0x01, 0x24]
      [] = true := by decide
theorem test_dtenc_2100_no_century_bit :
    answers [0x06, 0x34, 0x08, 1, 1, 0, 0, 0] (sim [] []) .ok [0x00, 0x00, 0x00, 0x05, 0x01, 0x01, 0x00]
      [] = true := by decide
theorem test_dtdec_century :
    answers [0x07, 0x80, 0x60, 0x52, 0xFF, 0x01, 0x81, 0x00] (sim [] []) .ok [0x34, 0x08, 1, 1, 12, 60, 0]
      [] = true := by decide
theorem test_dtdec_corrupt_minute :
    answers [0x07, 0x00, 0x5A, 0x00, 0x00, 0x01, 0x01, 0x00] (sim [] []) .corruptData [0xD0, 0x07, 1, 1, 0, 60, 0]
      [] = true := by decide
theorem test_tmpdec_minus_quarter : answers [0x08, 0xFF, 0xC0] (sim [] []) .ok [0xFF, 3] [] = true := by decide
theorem test_tmpdec_low_bits_ignored : answers [0x08, 0x00, 0x3F] (sim [] []) .ok [0x00, 0] [] = true := by decide
theorem test_a1enc_example :
    answers [0x09, 30, 15, 6, 1, 0x1F] (sim [] []) .ok [0xB0, 0x95, 0x86, 0xC1] [] = true := by decide
theorem test_a1enc_flag_3_is_bit_6 :
    answers [0x09, 0, 0, 0, 31, 0xE8] (sim [] []) .ok [0x00, 0x00, 0x00, 0x71] [] = true := by decide
theorem test_a1dec_hour_and_flag :
    answers [0x0A, 0xB0, 0x95, 0xF2, 0x41] (sim [] []) .ok [30, 15, 24, 1, 0x0F] [] = true := by decide
theorem test_a1dec_corrupt_second :
    answers [0x0A, 0x8A, 0x00, 0x00, 0x40] (sim [] []) .corruptData [10, 0, 0, 0, 0x09] [] = true := by decide
theorem test_a2enc_example : answers [0x0B, 0, 7, 5, 0x0B] (sim [] []) .ok [0x80, 0x87, 0x85] [] = true := by decide
theorem test_a2enc_flag_2_is_bit_6 :
    answers [0x0B, 0, 0, 31, 0xF4] (sim [] []) .ok [0x00, 0x00, 0x71] [] = true := by decide
theorem test_a2dec_example : answers [0x0C, 0x80, 0x87, 0x85] (sim [] []) .ok [0, 7, 5, 0x0B] [] = true := by decide
theorem test_a2dec_all_ones :
    answers [0x0C, 0xFF, 0xFF, 0xFF] (sim [] []) .corruptData [85, 37, 45, 0x0F] [] = true := by decide
theorem test_getdt_example :
    answers [0x10]
      (sim [(0, 0x30), (1, 0x45), (2, 0x13), (3, 1), (4, 1), (5, 1), (6, 0x24)] [])
      .ok [0xE8, 0x07, 1, 1, 13, 45, 30]
      [.read 0x00 7 .ack [0x30, 0x45, 0x13, 0x01, 0x01, 0x01, 0x24]] = true := by decide
theorem test_getdt_nack : answers [0x10] (sim [] [nacked]) .busError [] [.read 0x00 7 .nack []] = true := by decide
theorem test_setdt_example :
    answers [0x11, 0xE8, 0x07, 1, 1, 13, 45, 30] (sim [(0x0F, 0x88)] []) .ok []
      [.read 0x0F 1 .ack [0x88], .write 0x0F [0x08] .ack,
        .write 0x00 [0x30, 0x45, 0x13, 1, 1, 1, 0x24] .ack] = true := by decide
theorem test_setdt_status_nack_leaves_time :
    answers [0x11, 0xE8, 0x07, 1, 1, 13, 45, 30] (sim [(0x0F, 0x88)] [acked, nacked]) .busError []
      [.read 0x0F 1 .ack [0x88], .write 0x0F [0x08] .nack] = true := by decide
theorem test_gettmp_example :
    answers [0x12] (sim [(0x11, 0xF6), (0x12, 0xC0)] []) .ok [0xF6, 3]
      [.read 0x11 2 .ack [0xF6, 0xC0]] = true := by decide
theorem test_geta1_example :
    answers [0x13] (sim [(7, 0xB0), (8, 0x95), (9, 0x86), (10, 0xC1)] []) .ok [30, 15, 6, 1, 0x1F]
      [.read 0x07 4 .ack [0xB0, 0x95, 0x86, 0xC1]] = true := by decide
theorem test_seta1_example :
    answers [0x14, 30, 15, 6, 1, 0x1F] (sim [] []) .ok []
      [.write 0x07 [0xB0, 0x95, 0x86, 0xC1] .ack] = true := by decide
theorem test_seta1_dayof_0 : answers [0x14, 30, 15, 6, 0, 0x1F] (sim [] []) .argRange [] [] = true := by decide
theorem test_geta2_example :
    answers [0x15] (sim [(11, 0x80), (12, 0x87), (13, 0x85)] []) .ok [0, 7, 5, 0x0B]
      [.read 0x0B 3 .ack [0x80, 0x87, 0x85]] = true := by decide
theorem test_seta2_example :
    answers [0x16, 0, 7, 5, 0x0B] (sim [] []) .ok [] [.write 0x0B [0x80, 0x87, 0x85] .ack] = true := by decide
theorem test_getvalid_osf_set :
    answers [0x17] (sim [(0x0F, 0x88)] []) .ok [0] [.read 0x0F 1 .ack [0x88]] = true := by decide
theorem test_getvalid_other_bits :
    answers [0x17] (sim [(0x0F, 0x7F)] []) .ok [1] [.read 0x0F 1 .ack [0x7F]] = true := by decide
theorem test_getrun_example :
    answers [0x18] (sim [(0x0E, 0x1C)] []) .ok [1] [.read 0x0E 1 .ack [0x1C]] = true := by decide
theorem test_getrun_stopped :
    answers [0x18] (sim [(0x0E, 0x80)] []) .ok [0] [.read 0x0E 1 .ack [0x80]] = true := by decide
theorem test_setrun_example :
    answers [0x19, 1] (sim [(0x0E, 0x9C)] []) .ok []
      [.read 0x0E 1 .ack [0x9C], .write 0x0E [0x1C] .ack] = true := by decide
theorem test_setrun_stop_keeps_conv :
    answers [0x19, 0] (sim [(0x0E, 0x20)] []) .ok []
      [.read 0x0E 1 .ack [0x20], .write 0x0E [0xA0] .ack] = true := by decide
theorem test_set32k_example :
    answers [0x1A, 1] (sim [(0x0F, 0x80)] []) .ok []
      [.read 0x0F 1 .ack [0x80], .write 0x0F [0x88] .ack] = true := by decide
theorem test_set32k_off :
    answers [0x1A, 0] (sim [(0x0F, 0xFF)] []) .ok []
      [.read 0x0F 1 .ack [0xFF], .write 0x0F [0xF7] .ack] = true := by decide
theorem test_sqwmode_example :
    answers [0x1B, 3] (sim [(0x0E, 0x1C)] []) .ok []
      [.read 0x0E 1 .ack [0x1C], .write 0x0E [0x1D] .ack] = true := by decide
theorem test_sqwmode_battery_backup :
    answers [0x1B, 1] (sim [(0x0E, 0xFF)] []) .ok []
      [.read 0x0E 1 .ack [0xFF], .write 0x0E [0xF8] .ack] = true := by decide
theorem test_sqwrate_example :
    answers [0x1C, 1] (sim [(0x0E, 0x1C)] []) .ok []
      [.read 0x0E 1 .ack [0x1C], .write 0x0E [0x0C] .ack] = true := by decide
theorem test_sqwrate_code_4 : answers [0x1C, 4] (sim [] []) .argRange [] [] = true := by decide
theorem test_latchaf_example :
    answers [0x1D] (sim [(0x0F, 0x03)] []) .ok [0x03]
      [.read 0x0F 1 .ack [0x03], .write 0x0F [0x00] .ack] = true := by decide
theorem test_latchaf_write_nack :
    answers [0x1D] (sim [(0x0F, 0x8B)] [acked, nacked]) .busError []
      [.read 0x0F 1 .ack [0x8B], .write 0x0F [0x88] .nack] = true := by decide
theorem test_forceconv_example :
    answers [0x1E, 1] (sim [(0x0E, 0x1C)] [acked, acked, reads 0x3C, reads 0x1C]) .ok []
      [.read 0x0E 1 .ack [0x1C], .write 0x0E [0x3C] .ack,
        .read 0x0E 1 .ack [0x3C], .read 0x0E 1 .ack [0x1C]] = true := by decide
theorem test_forceconv_timeout_on_sim :
    answers [0x1E, 1] (sim [] []) .convTimeout []
      [.read 0x0E 1 .ack [0], .write 0x0E [0x20] .ack, .read 0x0E 1 .ack [0x20], .read 0x0E 1 .ack [0x20],
        .read 0x0E 1 .ack [0x20]] = true := by decide
theorem test_getage_example :
    answers [0x1F] (sim [(0x10, 0xFB)] []) .ok [0xFB] [.read 0x10 1 .ack [0xFB]] = true := by decide
theorem test_setage_example : answers [0x20, 0xFB] (sim [] []) .ok [] [.write 0x10 [0xFB] .ack] = true := by decide

/-! ### The block -/

theorem test_illegal_command : answers [0x21, 1] (sim [] []) .illegalCommand [] [] = true := by decide
theorem test_setage_reaches_its_register : (ran [0x20, 0xFB] (sim [] [])).dev.read? 0x10 = some 0xFB := by decide
theorem test_host_reads_result : (ran [0x1F] (sim [(0x10, 0xFB)] [])).hostReadQ 0 = .ok 0xFB := by decide
theorem test_host_reads_past_results : (ran [0x1F] (sim [] [])).hostReadQ 1 = .error .hostReadNoValue := by decide
theorem test_no_status_before_the_first_response : (sim [] []).hostReadST = .error .hostReadNoValue := by decide
theorem test_status_code_of_timeout : (ran [0x1E, 1] (sim [] [])).hostReadST = .ok 0x04 := by decide

/-- A write that is not acknowledged may leave a prefix of its bytes (20_memory.md R84), here on a device that is not SIM and
changes nothing of its own meanwhile; SIM, made to NACK it, changes nothing, whatever the answer says. -/
theorem test_nacked_write_lands_a_prefix :
    let s := ran [0x16, 0, 7, 5, 0x0B] (still (sim [] [{ nacked with landed := 2 }]))
    (s.dev.read? 0x0B, s.dev.read? 0x0C, s.dev.read? 0x0D) = (some 0x80, some 0x87, some 0x00) := by decide
theorem test_nacked_write_changes_nothing_on_sim :
    let s := ran [0x16, 0, 7, 5, 0x0B] (sim [] [{ nacked with landed := 2 }])
    (s.dev.read? 0x0B, s.dev.read? 0x0C, s.dev.read? 0x0D) = (some 0x00, some 0x00, some 0x00) := by decide

/-- SETDT whose time write is not acknowledged: OSF is cleared, and the second is written and the minute not (R84, R188). -/
theorem test_setdt_nacked_time_write :
    let s := ran [0x11, 0xE8, 0x07, 1, 1, 13, 45, 30] (still (sim [(0x0F, 0x88)] [acked, acked, { nacked with landed := 1 }]))
    (s.dev.read? 0x0F, s.dev.read? 0x00, s.dev.read? 0x01) = (some 0x08, some 0x30, some 0x00) := by decide

/-- A step of waiting keeps the response readable (R350, R381). -/
theorem test_waiting_keeps_the_response :
    let s := next (step (ran [0x1F] (sim [(0x10, 0xFB)] [])))
    (s.hostReadST, s.hostReadQ 0, s.seq) = (.ok 0x00, .ok 0xFB, .idle) := by decide

/-- A reset after the read of a read-modify-write (the second action after the acceptance is its write) leaves the register
unwritten, with no response (R380). -/
theorem test_reset_between_read_and_write :
    let s := ran [0x19, 0] { sim [] [] with resetIn := some 2 }
    (s.seq, s.response, s.dev.read? 0x0E, s.events) = (.idle, none, some 0x00, [.read 0x0E 1 .ack [0x00]]) := by decide

/-- A reset right after the acceptance abandons an operation in phase 0, a pure and an illegal one too (R380). -/
theorem test_reset_in_phase_0 :
    let s := ran [0x01, 45] { sim [] [] with resetIn := some 1 }
    let u := ran [0x21] { sim [] [] with resetIn := some 1 }
    (s.seq, s.response, s.command, s.host, s.events) = (.idle, none, [], [], []) ∧ u = s := by decide

/-- The chip may set OSF before the first transaction, here at the acceptance, and while the block waits (R72). -/
theorem test_chip_sets_osf_at_the_acceptance :
    answers [0x17] { sim [] [] with chip := [[(0x0F, 0x80)]] } .ok [0] [.read 0x0F 1 .ack [0x80]] = true := by decide
theorem test_chip_sets_osf_while_waiting :
    (next (step { sim [] [] with chip := [[(0x0F, 0x80)]] })).dev.read? 0x0F = some 0x80 := by decide

/-- A frame of nine bytes is no command, and there is no A7 (R31, R345; log 20). -/
theorem test_no_register_past_A6 :
    let s := ran [0x07, 0, 1, 2, 3, 4, 5, 6, 7] (sim [] [])
    (s.hostReadST, s.opc, s.a 6, s.a 7) = (.ok 0x05, some 0x07, some 6, none) := by decide

/-- A write that never returns leaves the block BUSY with what it holds (R358, R33, R34). -/
theorem test_silent_write_leaves_busy :
    (ran [0x19, 0] (sim [(0x0E, 0x1C)] [acked, silent])).seq =
      .busy { phase := 1, buf := [0x1C], t := some 0x1C, k := none } := by decide

/-! ### The assembler (R108) -/

theorem test_assemble_setdt :
    assembleLine "SETDT 2024, 1, 1, 13, 45, 30 ; set".toList =
      .ok (some [0x11, 0xE8, 0x07, 0x01, 0x01, 0x0D, 0x2D, 0x1E]) := by decide
theorem test_assemble_setage_minus_5 : assembleLine "SETAGE -5".toList = .ok (some [0x20, 0xFB]) := by decide
theorem test_assemble_binary : assembleLine "TMPDEC 25, 0b01000000".toList = .ok (some [0x08, 0x19, 0x40]) := by decide
theorem test_assemble_operand_range : assembleLine "BCDENC 256".toList = .error .operandOutOfRange := by decide
theorem test_assemble_operand_count : assembleLine "GETDT 1".toList = .error .wrongOperandCount := by decide

/-! ### Witnesses: for each statement with hypotheses, states and operands that meet them, for each clause and at the bounds
of its ranges -/

/-- The result of an operation in a state. -/
def result (i : Instr) (s : State) : State := next (exec i s)

theorem exec_result (i : Instr) (s : State) : exec i s = .next (result i s) := by cases i <;> rfl

/-- No reset is asserted on a test state: the premise of every operation statement. -/
theorem witness_no_reset : (sim [] []).resetIn = none ∧ (sim [] [nacked]).resetIn = none ∧
    (sim [] [acked, nacked]).resetIn = none ∧ (sim [] [silent]).resetIn = none := by decide

/-- The replies the clauses of the device operations ask for. -/
theorem witness_replies :
    ((sim [] []).answerAt 0).reply = .ack ∧ ((sim [] []).answerAt 1).reply = .ack ∧ ((sim [] []).answerAt 2).reply = .ack ∧
    ((sim [] [nacked]).answerAt 0).reply = .nack ∧
    ((sim [] [acked, nacked]).answerAt 0).reply = .ack ∧ ((sim [] [acked, nacked]).answerAt 1).reply = .nack ∧
    ((sim [] [acked, acked, nacked]).answerAt 1).reply = .ack ∧
    ((sim [] [acked, acked, nacked]).answerAt 2).reply = .nack := by decide

/-- SIM with no explicit answers acknowledges every transaction. -/
theorem sim_acks (j : Nat) : ((sim [] []).answerAt j).reply = .ack := rfl

theorem sim_quiet : (sim [] []).Quiet := ⟨rfl, fun a h => by cases h⟩

/-- The premises of `ReadsContents`, which every statement of a read has, at the ends of the longest burst. -/
theorem witness_ReadsContents :
    let s := sim [(0x00, 0x30), (0x06, 0x24)] []
    s.Quiet ∧ s.script = [] ∧ s.dev.wf = true ∧ 0 < 7 ∧ 6 < 7 ∧ s.dev.read? 0x00 = some 0x30 ∧ s.dev.read? 0x06 = some 0x24 :=
  ⟨⟨rfl, fun a h => by cases h⟩, rfl, by decide, by decide, by decide, by decide, by decide⟩

/-- A chip that is still for as many actions as the longest operation on a test state has. -/
theorem still_stillFor (cells : List Host.Cell) (script : List Answer) : (still (sim cells script)).StillFor 7 := by
  intro j hj
  interval_cases j <;> rfl

theorem witness_AcceptedFrameIsEncoding : decode [0x1E, 0x02] = .ok (.forceconv 2) := by decide

theorem witness_FrameRejectedExactlyWhenUnassignedOrWrongLength :
    (∀ n ∈ [0x00, 0x0D, 0x0F, 0x21, 0xFF], n = 0x00 ∨ (0x0D ≤ n ∧ n ≤ 0x0F) ∨ 0x21 ≤ n) ∧
    (∀ n ∈ [0x01, 0x0C, 0x10, 0x20], ¬(n = 0x00 ∨ (0x0D ≤ n ∧ n ≤ 0x0F) ∨ 0x21 ≤ n)) ∧
    (∃ row ∈ opcodeMap, row.opcode = 0x01 ∧ [0x2D#8].length = row.format.operandBytes) ∧
    (∃ row ∈ opcodeMap, row.opcode = 0x01 ∧ ([] : List Byte).length ≠ row.format.operandBytes) := by decide

theorem witness_IllegalCommandHasNoOtherEffect :
    let s := { sim [] [] with host := [[0x0D, 0x01]] }
    s.seq = .idle ∧ s.resetIn = none ∧ s.host = [[0x0D, 0x01]] ∧ (0x0D ≤ 0x0D ∧ 0x0D ≤ 0x0F) ∧
      ∃ row ∈ opcodeMap, row.opcode = 0x10 ∧ [0x00#8].length ≠ row.format.operandBytes := by decide

theorem witness_IllegalCommand_quiet : { sim [] [] with host := [[0x0D, 0x01]] }.Quiet := ⟨rfl, fun a h => by cases h⟩

theorem witness_StepRunsTheDecodedCommand :
    let s := { sim [] [] with host := [[0x17]], resetIn := some 1 }
    s.seq = .idle ∧ s.resetIn ≠ some 0 ∧ s.host = [[0x17]] ∧ decode [0x17] = .ok .getvalid := by decide

/-- The waiting clause: an IDLE block with a response, no frame left and no reset due. -/
theorem witness_StepRunsTheDecodedCommand_waiting :
    let s := { ran [0x12] (sim [] []) with resetIn := some 1 }
    s.seq = .idle ∧ s.resetIn ≠ some 0 ∧ s.host = [] ∧ s.response = some { status := .ok, results := [0, 0] } := by decide

theorem witness_BcdencPacksDigits : (sim [] []).resetIn = none := rfl
theorem witness_BcddecValueAndStatus : (sim [] []).resetIn = none := rfl

theorem witness_HrencChecksThenEncodes :
    (sim [] []).resetIn = none ∧ (0#8).toNat ≤ 23 ∧ (23#8).toNat ≤ 23 ∧ (24#8).toNat > 23 ∧ (255#8).toNat > 23 := by decide

theorem witness_HrdecReadsTheHourLiterally :
    (sim [] []).resetIn = none ∧ (0x40#8).toNat / 64 % 2 = 1 ∧ (0xFF#8).toNat / 64 % 2 = 1 ∧
    (0x3F#8).toNat / 64 % 2 = 0 ∧ (0xBF#8).toNat / 64 % 2 = 0 := by decide

theorem witness_BcdAndHourRoundTrip : 99 ≤ 99 ∧ 23 ≤ 23 ∧ 100 ≤ 100 ∧ 255 ≤ 255 := by decide

theorem witness_DowGivesTheWeekday :
    (sim [] []).resetIn = none ∧ Reading.dateOk 2000 1 1 ∧ Reading.dateOk 2199 12 31 ∧ ¬Reading.dateOk 1999 1 1 ∧
    ¬Reading.dateOk 2200 1 1 ∧ ¬Reading.dateOk 2000 0 1 ∧ ¬Reading.dateOk 2000 13 1 ∧ ¬Reading.dateOk 2000 1 0 ∧
    ¬Reading.dateOk 2000 1 32 := by decide

theorem witness_WeekdayFollowsTheCalendar : 2000 ≤ 2000 ∧ 1 ≤ 1 ∧ 11 ≤ 11 := by decide

/-- The ranges of a date-time at their bounds. -/
theorem witness_DtencGivesTheRegisterBytes :
    (sim [] []).resetIn = none ∧ Reading.dtOk 2000 1 1 0 0 0 ∧ Reading.dtOk 2199 12 31 23 59 59 ∧
    ¬Reading.dtOk 2000 1 1 24 0 0 ∧ ¬Reading.dtOk 2000 1 1 0 60 0 ∧ ¬Reading.dtOk 2000 1 1 0 0 60 := by decide

theorem witness_DtdecGivesTheFields : (sim [] []).resetIn = none := rfl

theorem witness_GetdtDecodesTheTimeBlock :
    (sim [] []).resetIn = none ∧ ((sim [] []).answerAt 0).reply = .ack ∧ (sim [] [nacked]).resetIn = none ∧
    ((sim [] [nacked]).answerAt 0).reply = .nack := by decide

theorem witness_SetdtClearsOsfThenWritesTheTime :
    ¬Reading.dtOk 1999 12 31 23 59 59 ∧ Reading.dtOk 2000 1 1 0 0 0 ∧ Reading.dtOk 2199 12 31 23 59 59 ∧
    (sim [] [acked, acked, nacked]).resetIn = none ∧ ((sim [] [acked, acked, nacked]).answerAt 0).reply = .ack ∧
    ((sim [] [acked, acked, nacked]).answerAt 1).reply = .ack ∧
    ((sim [] [acked, acked, nacked]).answerAt 2).reply = .nack := by decide

theorem witness_DateTimeRoundTrip :
    Reading.dtOk 2000 1 1 0 0 0 ∧ Reading.dtOk 2099 12 31 23 59 59 ∧ Reading.dtOk 2100 1 1 0 0 0 ∧ 2099 ≤ 2099 ∧
    2100 ≤ 2100 := by decide

theorem witness_TmpdecGivesDegreesAndQuarters : (sim [] []).resetIn = none := rfl

theorem witness_GettmpReadsTheTemperature :
    (sim [] []).resetIn = none ∧ ((sim [] []).answerAt 0).reply = .ack ∧ (sim [] [nacked]).resetIn = none ∧
    ((sim [] [nacked]).answerAt 0).reply = .nack := by decide

/-- The ranges of alarm one at their bounds. -/
theorem witness_A1encInterleavesControlBits :
    (sim [] []).resetIn = none ∧ Reading.alarmOk 0 0 0 1 ∧ Reading.alarmOk 59 59 23 31 ∧ ¬Reading.alarmOk 60 0 0 1 ∧
    ¬Reading.alarmOk 0 60 0 1 ∧ ¬Reading.alarmOk 0 0 24 1 ∧ ¬Reading.alarmOk 0 0 0 0 ∧ ¬Reading.alarmOk 0 0 0 32 := by
  decide

theorem witness_A1decExtractsControlBits : (sim [] []).resetIn = none := rfl

theorem witness_A2encInterleavesControlBits :
    (sim [] []).resetIn = none ∧ Reading.alarmOk 0 59 23 31 ∧ Reading.alarmOk 0 0 0 1 ∧ ¬Reading.alarmOk 0 60 0 1 ∧
    ¬Reading.alarmOk 0 0 24 1 ∧ ¬Reading.alarmOk 0 0 0 0 := by decide

theorem witness_A2decExtractsControlBits : (sim [] []).resetIn = none := rfl

theorem witness_Geta1DecodesAlarmOne :
    (sim [] []).resetIn = none ∧ ((sim [] []).answerAt 0).reply = .ack ∧ ((sim [] [nacked]).answerAt 0).reply = .nack ∧
    (sim [] [nacked]).resetIn = none := by decide

theorem witness_Geta2DecodesAlarmTwo :
    (sim [] []).resetIn = none ∧ ((sim [] []).answerAt 0).reply = .ack ∧ ((sim [] [nacked]).answerAt 0).reply = .nack ∧
    (sim [] [nacked]).resetIn = none := by decide

theorem witness_Seta1WritesAlarmOne :
    Reading.alarmOk 59 59 23 31 ∧ ¬Reading.alarmOk 0 0 0 32 ∧ (sim [] []).resetIn = none ∧
    ((sim [] []).answerAt 0).reply = .ack ∧ (sim [] [nacked]).resetIn = none ∧
    ((sim [] [nacked]).answerAt 0).reply = .nack := by decide

theorem witness_Seta2WritesAlarmTwo :
    Reading.alarmOk 0 59 23 31 ∧ ¬Reading.alarmOk 0 0 0 32 ∧ (sim [] []).resetIn = none ∧
    ((sim [] []).answerAt 0).reply = .ack ∧ (sim [] [nacked]).resetIn = none ∧
    ((sim [] [nacked]).answerAt 0).reply = .nack := by decide

theorem witness_AlarmRoundTrip :
    Reading.alarmOk 59 59 23 31 ∧ (0x1F#8).toNat ≤ 31 ∧ Reading.alarmOk 0 59 23 31 ∧ (0x0F#8).toNat ≤ 15 := by decide

theorem witness_GetvalidReportsOsfClear :
    (sim [] []).resetIn = none ∧ ((sim [] []).answerAt 0).reply = .ack ∧ (sim [] [nacked]).resetIn = none ∧
    ((sim [] [nacked]).answerAt 0).reply = .nack := by decide

theorem witness_GetrunReportsEoscClear :
    (sim [] []).resetIn = none ∧ ((sim [] []).answerAt 0).reply = .ack ∧ (sim [] [nacked]).resetIn = none ∧
    ((sim [] [nacked]).answerAt 0).reply = .nack := by decide

/-- The operands of the setters on both sides of their bounds; the replies are those of `witness_replies`. -/
theorem witness_SetrunWritesEosc :
    (0#8).toNat ≤ 1 ∧ (1#8).toNat ≤ 1 ∧ (2#8).toNat > 1 ∧ (sim [] [acked, nacked]).resetIn = none ∧
    ((sim [] [acked, nacked]).answerAt 0).reply = .ack ∧ ((sim [] [acked, nacked]).answerAt 1).reply = .nack := by decide

theorem witness_Set32kWritesTheEnable :
    (0#8).toNat ≤ 1 ∧ (1#8).toNat ≤ 1 ∧ (2#8).toNat > 1 ∧ (sim [] []).resetIn = none ∧
    ((sim [] []).answerAt 0).reply = .ack ∧ ((sim [] []).answerAt 1).reply = .ack := by decide

theorem witness_SqwmodeWritesTheModeBits :
    (6#8).toNat > 5 ∧ [0x04#8, 0x40#8, 0x00#8, 0x05#8, 0x06#8, 0x07#8][(0#8).toNat]? = some 0x04#8 ∧
    [0x04#8, 0x40#8, 0x00#8, 0x05#8, 0x06#8, 0x07#8][(5#8).toNat]? = some 0x07#8 ∧ (sim [] []).resetIn = none ∧
    ((sim [] []).answerAt 0).reply = .ack ∧ ((sim [] []).answerAt 1).reply = .ack := by decide

theorem witness_SqwrateReplacesTheRateField :
    (0#8).toNat ≤ 3 ∧ (3#8).toNat ≤ 3 ∧ (4#8).toNat > 3 ∧ (sim [] [nacked]).resetIn = none ∧
    ((sim [] [nacked]).answerAt 0).reply = .nack := by decide

theorem witness_LatchafReportsAndClears :
    (sim [] []).resetIn = none ∧ ((sim [] []).answerAt 0).reply = .ack ∧ ((sim [] []).answerAt 1).reply = .ack := by decide

theorem witness_SecondLatchafReadsClear :
    (sim [] []).Quiet ∧ (sim [] []).script = [] ∧ (sim [] []).resetIn = none ∧ (sim [] []).dev.wf = true :=
  ⟨sim_quiet, rfl, rfl, by decide⟩

/-- The first polls return (the one of a silent fourth transaction does not), and the SIM clause has its state. -/
theorem witness_ForceconvSetsConvAndPolls :
    (sim [] []).resetIn = none ∧ (2#8).toNat > 1 ∧ (0#8).toNat = 0 ∧ (1#8).toNat = 1 ∧
    ((sim [] []).answerAt 0).reply = .ack ∧ ((sim [] []).answerAt 1).reply = .ack ∧
    (∀ j, j < (sim [] []).convPollMax → ((sim [] []).answerAt (2 + j)).reply ≠ .silent) ∧
    ((sim [] [acked, acked, reads 0x1C]).answerAt 2).data[0]? = some 0x1C ∧
    (sim [] []).Quiet ∧ (sim [] []).script = [] ∧ (sim [] []).dev.wf = true :=
  ⟨rfl, by decide, by decide, by decide, rfl, rfl, fun j _ => by rw [sim_acks]; decide, by decide, sim_quiet, rfl, by decide⟩

/-- A run of the poll clause whose first poll finds CONV 0 in the byte its answer lists. -/
theorem witness_ForceconvSetsConvAndPolls_listed :
    let s := sim [] [acked, acked, reads 0x1C]
    (result (.forceconv 1) s).events =
      [.read 0x0E 1 .ack [0x00], .write 0x0E [0x20] .ack] ++ [.read 0x0E 1 .ack [0x1C]] ∧
    pollStatus s.convPollMax [.read 0x0E 1 .ack [0x1C]] = some .ok := by decide

theorem witness_GetageReturnsTheRawByte :
    (sim [] []).resetIn = none ∧ ((sim [] []).answerAt 0).reply = .ack ∧ (sim [] [nacked]).resetIn = none ∧
    ((sim [] [nacked]).answerAt 0).reply = .nack := by decide

theorem witness_SetageWritesTheRawByte :
    (sim [] []).resetIn = none ∧ ((sim [] []).answerAt 0).reply = .ack ∧ (sim [] [nacked]).resetIn = none ∧
    ((sim [] [nacked]).answerAt 0).reply = .nack := by decide

theorem witness_OnlyOwnedBitsChange :
    (sim [] []).resetIn = none ∧ Instr.wellFormed (.sqwmode 5) = true ∧ ownedBits (.sqwmode 5) = some (0x0E, 0x47#8) ∧
    ((sim [] []).answerAt 0).reply = .ack ∧ ((sim [] []).answerAt 1).reply = .ack := by decide

theorem witness_ConvIsWrittenBack :
    let s := sim [(0x0E, 0x20)] []
    exec (.setrun 0) s = .next (result (.setrun 0) s) ∧
      (result (.setrun 0) s).events = s.events ++ .read 0x0E 1 .ack [0x20] :: .write 0x0E [0xA0] .ack :: [] ∧
      (0x20#8).toNat / 32 % 2 = 1 := ⟨rfl, by decide, by decide⟩

theorem witness_ArgRangeExactlyWhenIllFormed :
    (sim [] []).resetIn = none ∧ Instr.wellFormed (.sqwrate 4) = false ∧ Instr.wellFormed (.sqwrate 3) = true ∧
    exec (.sqwrate 3) (sim [] []) = .next (result (.sqwrate 3) (sim [] [])) ∧
    (result (.sqwrate 3) (sim [] [])).seq = .idle ∧
    (result (.sqwrate 3) (sim [] [])).response = some { status := .ok, results := [] } :=
  ⟨rfl, rfl, rfl, rfl, by decide, by decide⟩

theorem witness_BusErrorExactlyAtTheFailedTransaction :
    let s := sim [] [acked, nacked]
    s.resetIn = none ∧ exec .latchaf s = .next (result .latchaf s) ∧ (result .latchaf s).seq = .idle ∧
      (result .latchaf s).response = some { status := .busError, results := [] } ∧
      (result .latchaf (sim [] [])).response = some { status := .ok, results := [0] } :=
  ⟨rfl, rfl, by decide, by decide, by decide⟩

theorem witness_CorruptDataDeliversEveryResult :
    let s := sim [(0x01, 0x5A)] []
    s.resetIn = none ∧ exec .getdt s = .next (result .getdt s) ∧ (result .getdt s).seq = .idle ∧
      (result .getdt s).response = some { status := .corruptData, results := [0xD0, 0x07, 0, 0, 0, 60, 0] } :=
  ⟨rfl, rfl, by decide, by decide⟩

theorem witness_ConvTimeoutOnlyAfterEveryPoll :
    let s := sim [] []
    s.resetIn = none ∧ exec (.forceconv 1) s = .next (result (.forceconv 1) s) ∧ (result (.forceconv 1) s).seq = .idle ∧
      (result (.forceconv 1) s).response = some { status := .convTimeout, results := [] } :=
  ⟨rfl, rfl, by decide, by decide⟩

theorem witness_TransactionsFollowTheList :
    let s := sim [] []
    exec .getage s = .next (result .getage s) ∧ s.resetIn = none ∧ (result .getage s).seq = .idle ∧
      (result .getage s).response = some { status := .ok, results := [0] } ∧ Status.ok.delivers = true ∧
      Instr.getage ≠ .forceconv 1 :=
  ⟨rfl, rfl, by decide, by decide, by decide, by decide⟩

theorem witness_TransactionsAreBounded :
    1 ≤ { sim [] [] with convPollMax := 1 }.convPollMax ∧
    exec (.forceconv 1) { sim [] [] with convPollMax := 1 } =
      .next (result (.forceconv 1) { sim [] [] with convPollMax := 1 }) := ⟨by decide, rfl⟩

theorem witness_ResponseCarriesExactlyItsResults :
    let s := sim [] []
    s.resetIn = none ∧ exec .geta2 s = .next (result .geta2 s) ∧ (result .geta2 s).seq = .idle ∧
      (result .geta2 s).response = some { status := .ok, results := [0, 0, 0, 0] } := ⟨rfl, rfl, by decide, by decide⟩

theorem witness_PureOperationsTouchNoRegister :
    isPure (.a2dec 0 0 0) = true ∧ isPure .getdt = false ∧ (sim [] []).resetIn = none := by decide

theorem witness_PureResponseDependsOnOperandsOnly :
    isPure (.bcdenc 45) = true ∧ (sim [] []).resetIn = none ∧ (sim [(0x10, 1)] [nacked]).resetIn = none ∧
    exec (.bcdenc 45) (sim [] []) = .next (result (.bcdenc 45) (sim [] [])) ∧
    exec (.bcdenc 45) (sim [(0x10, 1)] [nacked]) = .next (result (.bcdenc 45) (sim [(0x10, 1)] [nacked])) :=
  ⟨rfl, rfl, rfl, rfl, rfl⟩

theorem witness_OtherDeviceRegistersUnchanged :
    (sim [] []).Quiet ∧ exec (.setage 1) (sim [] []) = .next (result (.setage 1) (sim [] [])) ∧
    0x0F ∉ writtenRegisters (.setage 1) ∧ 0x11 ∉ writtenRegisters (.setage 1) :=
  ⟨sim_quiet, rfl, by decide, by decide⟩

theorem witness_AcknowledgedWritesAreHeld :
    (sim [] []).Quiet ∧ (sim [] []).resetIn = none ∧ (sim [] []).dev.wf = true ∧
    (∀ j, j ≤ 2 → ((sim [] []).answerAt j).reply = .ack) ∧ Reading.alarmOk 59 59 23 31 ∧ Reading.alarmOk 0 59 23 31 ∧
    Reading.dtOk 2199 12 31 23 59 59 ∧ Instr.wellFormed (.forceconv 1) = true ∧
    ownedBits (.forceconv 1) = some (0x0E, 0x20#8) :=
  ⟨sim_quiet, rfl, by decide, fun j _ => sim_acks j, by decide, by decide, by decide, by decide, by decide⟩

/-- The clauses on writes that are not acknowledged: a device that is still, on SIM and not, with a last write that lands a
prefix, one that never returns, and SETDT at its bounds. -/
theorem witness_AcknowledgedWritesAreHeld_prefix :
    let s := still (sim [] [acked, acked, { nacked with landed := 2 }])
    s.StillFor (4 + s.convPollMax) ∧ s.StillFor 4 ∧ s.resetIn = none ∧ s.dev.wf = true ∧ (s.answerAt 0).reply = .ack ∧
    (s.answerAt 1).reply = .ack ∧ (s.answerAt 2).reply ≠ .ack ∧ landedOf s 2 = 2 ∧ Reading.dtOk 2000 1 1 0 0 0 ∧
    Reading.dtOk 2199 12 31 23 59 59 ∧ (sim [] [nacked]).StillFor (4 + (sim [] [nacked]).convPollMax) ∧
    landedOf (sim [] [{ nacked with landed := 2 }]) 0 = 0 ∧ landedOf (sim [] [{ silent with landed := 2 }]) 0 = 2 ∧
    exec (.setdt 2000 1 1 0 0 0) s = .next (result (.setdt 2000 1 1 0 0 0) s) ∧
    (result (.setdt 2000 1 1 0 0 0) s).events.length = 3 :=
  ⟨still_stillFor _ _, fun j hj => still_stillFor _ _ j (by omega), rfl, by decide, rfl, rfl, by decide, rfl, by decide,
    by decide, State.Quiet.stillFor ⟨rfl, fun a h => by cases h⟩ _, rfl, rfl, rfl, by decide⟩

/-- A BUSY state that meets the invariant, and a step from it. -/
theorem witness_StepKeepsTheInvariant :
    let s := ran [0x19, 0] (sim [] [acked, silent])
    s.Inv ∧ s.seq ≠ .idle ∧ step s = .next s.tick := by
  refine ⟨⟨by decide, by decide, ?_, ?_, by decide⟩, by decide, rfl⟩
  · intro r h
    have : (ran [0x19, 0] (sim [] [acked, silent])).response = none := by decide
    rw [this] at h; cases h
  · intro b h
    have : (ran [0x19, 0] (sim [] [acked, silent])).seq =
      .busy { phase := 1, buf := [0], t := some 0, k := none } := by decide
    rw [this] at h; cases h
    exact ⟨by decide, by decide, fun k h => by cases h⟩

theorem witness_SilentTransactionLeavesTheBlockBusy :
    isPure .getage = false ∧ Instr.wellFormed .getage = true ∧ (sim [] [silent]).resetIn = none ∧
    ((sim [] [silent]).answerAt 0).reply = .silent ∧
    exec (.setrun 0) (sim [] [acked, silent]) = .next (result (.setrun 0) (sim [] [acked, silent])) ∧
    (result (.setrun 0) (sim [] [acked, silent])).seq = .busy { phase := 1, buf := [0], t := some 0, k := none } ∧
    (result (.setrun 0) (sim [] [acked, silent])).resetIn ≠ some 0 ∧
    (result (.setrun 0) (sim [] [acked, silent])).Quiet :=
  ⟨rfl, rfl, rfl, rfl, rfl, by decide, by decide, ⟨rfl, fun a h => by cases h⟩⟩

/-- An operation with a reset after `n` transactions: between the read and the write of a read-modify-write (n = 1), after the
last transaction and before the response (n = 2), after the end (n = 3), and one whose write never returns (n = 2). -/
theorem witness_ResetAbandonsTheOperation :
    let s := fun (script : List Answer) n => { sim [] script with resetIn := some n }
    (∀ n ∈ [1, 2, 3], exec .latchaf (s [] n) = .next (result .latchaf (s [] n))) ∧
    exec .latchaf { s [] 2 with resetIn := none } = .next (result .latchaf { s [] 2 with resetIn := none }) ∧
    (result .latchaf { s [] 2 with resetIn := none }).seq = .idle ∧
    (result .latchaf { s [] 2 with resetIn := none }).events.length = 2 ∧
    (result .latchaf { s [acked, silent] 2 with resetIn := none }).seq ≠ .idle ∧
    (result .latchaf { s [acked, silent] 2 with resetIn := none }).events.length = 2 :=
  ⟨fun n _ => rfl, rfl, by decide, by decide, by decide, by decide⟩

/-- What those resets leave, by R380: no response where they come before it, and the operation as it is where they do not. -/
theorem witness_ResetAbandonsTheOperation_results :
    let s := fun (script : List Answer) n => { sim [] script with resetIn := some n }
    ([1, 2, 3].map fun n => ((result .latchaf (s [] n)).response, (result .latchaf (s [] n)).resetIn)) =
      [(none, none), (none, none), (some { status := .ok, results := [0] }, some 0)] ∧
    (result .latchaf (s [acked, silent] 2)).seq ≠ .idle ∧ (result .latchaf (s [acked, silent] 2)).resetIn = some 0 := by
  decide

/-- The other clauses: a setter, SETDT at its bounds, a quiet chip, a BUSY block with a reset due, and an accepted frame, a
command or none. -/
theorem witness_ResetAbandonsTheOperation_clauses :
    let s := fun n => { sim [] [] with resetIn := some n, host := [[0x21]] }
    (s 1).resetIn = some 1 ∧ (s 2).resetIn = some 2 ∧ (s 0).resetIn = some 0 ∧ Instr.wellFormed (.setrun 1) = true ∧
    ownedBits (.setrun 1) = some (0x0E, 0x80#8) ∧ Reading.dtOk 2000 1 1 0 0 0 ∧ Reading.dtOk 2199 12 31 23 59 59 ∧
    ((s 2).answerAt 0).reply = .ack ∧ ((s 2).answerAt 1).reply = .ack ∧ (s 2).dev.wf = true ∧
    { result .latchaf (sim [] [silent]) with resetIn := some 0 }.seq ≠ .idle ∧ (s 1).seq = .idle ∧
    (s 1).host = [0x21] :: [] := by decide

theorem witness_ResetAbandonsTheOperation_quiet (n : Nat) : { sim [] [] with resetIn := some n }.Quiet :=
  ⟨rfl, fun a h => by cases h⟩

theorem witness_HostReadsOnlyTheResponse :
    let s := ran [0x12] (sim [] [])
    s.response = some { status := .ok, results := [0, 0] } ∧ ([0, 0] : List Byte)[1]? = some 0 ∧
      ([0, 0] : List Byte).length ≤ 2 ∧ (sim [] []).response = none := by decide

/-- A response of each of the other statuses. -/
theorem witness_HostReadsOnlyTheResponse_statuses :
    (ran [0x02, 0xA0] (sim [] [])).response.map Response.status = some .corruptData ∧
    (ran [0x03, 24] (sim [] [])).response.map Response.status = some .argRange ∧
    (ran [0x10] (sim [] [nacked])).response.map Response.status = some .busError ∧
    (ran [0x1E, 1] (sim [] [])).response.map Response.status = some .convTimeout ∧
    (ran [0x21] (sim [] [])).response.map Response.status = some .illegalCommand := by decide

end Sys2Proof.Tests
end

section
/-! PROOFS. The family 10_state.md: what an operation does is said once, by the transactions still before it
(`Carries`, `exec_carried`); the invariant of the machine and the frame of the device registers are two uses of it. -/

namespace Sys2Proof.Machine

/-! ### What the host reads (R32, R341) -/

theorem hostReadST_some {s : State} {r : Response} (h : s.response = some r) : s.hostReadST = .ok r.status.code := by
  simp [State.hostReadST, h]

theorem hostReadST_none {s : State} (h : s.response = none) : s.hostReadST = .error .hostReadNoValue := by
  simp [State.hostReadST, h]

theorem hostReadQ_result {s : State} {r : Response} {j : Nat} {q : Byte} (h : s.response = some r)
    (hq : r.results[j]? = some q) : s.hostReadQ j = .ok q := by
  simp [State.hostReadQ, h, hq]

theorem hostReadQ_past {s : State} {r : Response} {j : Nat} (h : s.response = some r) (hj : r.results.length ≤ j) :
    s.hostReadQ j = .error .hostReadNoValue := by
  simp [State.hostReadQ, h, List.getElem?_eq_none hj]

theorem hostReadQ_none {s : State} (h : s.response = none) (j : Nat) : s.hostReadQ j = .error .hostReadNoValue := by
  simp [State.hostReadQ, h]

/-- Settles O60: ST reads the code of the response's status, and Qj its result `j`, where there is one. -/
theorem hostReadsOnlyTheResponse : Obligations.HostReadsOnlyTheResponse := by
  unfold Obligations.HostReadsOnlyTheResponse
  refine ⟨fun s j => ⟨fun r h => ⟨fun q => hostReadQ_result h, hostReadQ_past h⟩, fun h => hostReadQ_none h j⟩,
    fun s => ⟨fun r h => ?_, hostReadST_none⟩⟩
  rw [hostReadST_some h]
  refine ⟨?_, ?_, ?_, ?_, ?_, ?_⟩ <;> intro hst <;> rw [hst] <;> rfl

/-! ### The responses of an operation -/

/-- A response operation `i` may end with: its `m` results when the status delivers them, else none (R101). -/
def Response.Answers (r : Response) (i : Instr) : Prop :=
  r.status ≠ .illegalCommand ∧ r.results.length = if r.status.delivers then i.resultBytes else 0

/-- A response an operation may end with fits the frame of that operation. -/
theorem Response.Answers.fits {r : Response} {i : Instr} {command : List Byte} (h : r.Answers i)
    (hd : decode command = .ok i) : responseFits command r = true := by
  obtain ⟨hstatus, hlength⟩ := h
  simp [responseFits, hd, hstatus, hlength]

/-! ### The operations, by the transactions still before them -/

/-- `I l s` (the operation stands at `s` with the transactions `l` before it) is kept by every action of operation `i`, and
`P` holds wherever the operation can come to rest: where a reset abandons it (`reset`), in a transaction that never returns
(`stuck`), or at its response (`respond`). -/
structure Carries (i : Instr) (max : Nat) (I : List Transaction → State → Prop) (P : State → Prop) : Prop where
  convPollMax : ∀ {l s}, I l s → s.convPollMax = max
  reset : ∀ {l s}, I l s → P s.blockReset
  stuck : ∀ {l s}, I l s → P s
  respond : ∀ {l s r}, I l s → r.Answers i → P (respond r s)
  readAck : ∀ {addr n l s}, I (.read addr n :: l) s →
    I l ((s.issued (.read addr n .ack (s.dataBytes addr n)) s.dev).fill (s.dataBytes addr n)).advance
  readFail : ∀ {addr n l s} reply, I (.read addr n :: l) s → I l (s.issued (.read addr n reply []) s.dev)
  writeAck : ∀ {addr v l s}, I (.write addr v.length :: l) s →
    I l (s.issued (.write addr v .ack) (s.dev.writeBytes addr v)).advance
  writeFail : ∀ {addr v l s} reply landed, I (.write addr v.length :: l) s →
    I l (s.issued (.write addr v reply) (s.dev.writeBytes addr (v.take landed)))
  holdT : ∀ {l s} v, I l s → I l (s.holdT v)
  startPolls : ∀ {l s}, l.length ≤ max → I l s → I l (s.holdK 0)
  pollAck : ∀ {l s}, I (.read 0x0E 1 :: l) s → I l (pollRead s)

namespace Carries

variable {i : Instr} {max : Nat} {I : List Transaction → State → Prop} {P : State → Prop} {l : List Transaction}
  {s : State}

/-- A status that delivers no results ends any operation. -/
theorem raise (c : Carries i max I P) {st : Status} (h : I l s) (hst : st ≠ .illegalCommand)
    (hd : st.delivers = false) : P (raise st s) :=
  c.respond h ⟨hst, by simp [hd]⟩

theorem finish (c : Carries i max I P) {results : List Byte} (h : I l s) (hm : results.length = i.resultBytes) :
    P (finish results s) :=
  c.respond h ⟨by simp, by simpa [Status.delivers] using hm⟩

theorem finishChecked (c : Carries i max I P) {ok : Bool} {results : List Byte} (h : I l s)
    (hm : results.length = i.resultBytes) : P (finishChecked ok results s) := by
  cases ok with
  | true => exact c.finish h hm
  | false => exact c.respond h ⟨by simp, by simpa [Status.delivers] using hm⟩

/-- An argument check: what is done when it holds, or ARG_RANGE (R342). -/
theorem guard (c : Carries i max I P) {ok : Bool} {t : State} (h : I l s) (ht : P t) :
    P (if ok then t else Machine.raise .argRange s) := by
  cases ok with
  | true => exact ht
  | false => exact c.raise h (by decide) rfl

theorem memRead (c : Carries i max I P) {addr n : Nat} {k : (Nat → Byte) → State → State}
    (h : I (.read addr n :: l) s) (hk : ∀ b t, I l t → P (k b t)) : P (memRead addr n s k) :=
  memRead_cases addr n s k (fun _ => c.reset h) (fun _ _ => hk _ _ (c.readAck h))
    (fun _ _ => c.raise (c.readFail .nack h) (by decide) rfl) (fun _ _ => c.stuck (c.readFail .silent h))

theorem memWrite (c : Carries i max I P) {addr : Nat} {v : List Byte} {k : State → State}
    (h : I (.write addr v.length :: l) s) (hk : ∀ t, I l t → P (k t)) : P (memWrite addr v s k) :=
  memWrite_cases addr v s k (fun _ => c.reset h) (fun _ _ => hk _ (c.writeAck h))
    (fun _ _ => c.raise (c.writeFail .nack _ h) (by decide) rfl) (fun _ _ => c.stuck (c.writeFail .silent _ h))

theorem rmw (c : Carries i max I P) {addr : Nat} {clr set : Byte} {k : Byte → State → State}
    (h : I (.read addr 1 :: .write addr 1 :: l) s) (hk : ∀ b t, I l t → P (k b t)) : P (rmw addr clr set s k) := by
  unfold Machine.rmw
  exact c.memRead h fun d t ht => c.memWrite (c.holdT _ ht) fun u hu => hk (d 0) u hu

/-- The poll with `n` reads left, of an operation without results. -/
theorem poll (c : Carries i max I P) (hm : i.resultBytes = 0) (n : Nat)
    (h : I (List.replicate n (.read 0x0E 1)) s) : P (pollConv n s) := by
  refine pollConv_induction (I := fun n t => I (List.replicate n (.read 0x0E 1)) t)
    ?timeout ?reset ?nack ?silent ?done ?again n s h
  case timeout => exact fun t ht => c.raise ht (by decide) rfl
  case reset => exact fun n t ht _ => c.reset ht
  case nack => exact fun n t ht _ _ => c.raise (c.readFail .nack ht) (by decide) rfl
  case silent => exact fun n t ht _ _ => c.stuck (c.readFail .silent ht)
  case done => exact fun n t ht _ _ _ => c.finish (c.pollAck ht) hm.symm
  case again => exact fun n t ht _ _ _ => c.pollAck ht

end Carries

/-- The operand 1 is the only one that asks to wait. -/
theorem boolArg_some {a : Byte} {wait : Bool} (h : boolArg a = some wait) : a = 1 ↔ wait = true := by
  unfold boolArg at h
  split at h
  next h0 => cases h; simp [BitVec.toNat_eq, h0]
  next h1 => cases h; simp [BitVec.toNat_eq, h1]
  next => cases h

/-- FORCECONV makes its read-modify-write and, when it is to wait, up to CONV_POLL_MAX poll reads (R316). -/
theorem Carries.forceconv {a : Byte} {max : Nat} {I : List Transaction → State → Prop} {P : State → Prop} {s : State}
    (c : Carries (.forceconv a) max I P) (h : I (transactionsOf max (.forceconv a)) s.begin) :
    ∃ t, exec (.forceconv a) s = .next t ∧ P t := by
  refine ⟨_, rfl, ?_⟩
  split
  next wait hw =>
    refine c.rmw h fun _ t ht => ?_
    cases wait with
    | true =>
      rw [if_pos ((boolArg_some hw).2 rfl)] at ht
      rw [c.convPollMax ht]
      exact c.poll rfl max (c.startPolls (by simp) ht)
    | false => exact c.finish ht rfl
  next => exact c.raise h (by decide) rfl

/-- Every operation comes to rest where `P` holds, when its actions keep `I` and `I` holds as it starts with its whole list of
transactions (R75) before it. -/
theorem exec_carried {i : Instr} {max : Nat} {I : List Transaction → State → Prop} {P : State → Prop} {s : State}
    (c : Carries i max I P) (h : I (transactionsOf max i) s.begin) : ∃ t, exec i s = .next t ∧ P t := by
  cases i with
  | bcdenc | tmpdec => exact ⟨_, rfl, c.finish h rfl⟩
  | bcddec | hrdec | dtdec | a1dec | a2dec => exact ⟨_, rfl, c.finishChecked h rfl⟩
  | hrenc | dow | dtenc | a1enc | a2enc => exact ⟨_, rfl, c.guard h (c.finish h rfl)⟩
  | gettmp | getvalid | getrun | getage => exact ⟨_, rfl, c.memRead h fun _ _ ht => c.finish ht rfl⟩
  | getdt | geta1 | geta2 => exact ⟨_, rfl, c.memRead h fun _ _ ht => c.finishChecked ht rfl⟩
  | setage => exact ⟨_, rfl, c.memWrite h fun _ ht => c.finish ht rfl⟩
  | seta1 | seta2 => exact ⟨_, rfl, c.guard h (c.memWrite h fun _ ht => c.finish ht rfl)⟩
  | latchaf => exact ⟨_, rfl, c.rmw h fun _ _ ht => c.finish ht rfl⟩
  | sqwrate => exact ⟨_, rfl, c.guard h (c.rmw h fun _ _ ht => c.finish ht rfl)⟩
  | setrun | set32k | sqwmode =>
    refine ⟨_, rfl, ?_⟩
    split
    · exact c.rmw h fun _ _ ht => c.finish ht rfl
    · exact c.raise h (by decide) rfl
  | setdt => exact ⟨_, rfl, c.guard h (c.rmw h fun _ _ ht => c.memWrite ht fun _ hu => c.finish hu rfl)⟩
  | forceconv => exact c.forceconv h

/-- `exec_carried` of a run that is given. -/
theorem Carries.of_exec {i : Instr} {max : Nat} {I : List Transaction → State → Prop} {P : State → Prop} {s t : State}
    (c : Carries i max I P) (h : I (transactionsOf max i) s.begin) (ht : exec i s = .next t) : P t := by
  obtain ⟨u, hu, hp⟩ := exec_carried c h
  cases hu.symm.trans ht
  exact hp

/-! ### The lists of R75 -/

/-- FORCECONV's transactions are all of the control register 0x0E. -/
theorem mem_transactionsOf_forceconv {max : Nat} {a : Byte} {e : Transaction}
    (h : e ∈ transactionsOf max (.forceconv a)) : e = .read 0x0E 1 ∨ e = .write 0x0E 1 := by
  simp only [transactionsOf, List.cons_append, List.nil_append, List.mem_cons] at h
  obtain h | h | h := h
  · exact .inl h
  · exact .inr h
  · split at h
    · exact .inl (List.eq_of_mem_replicate h)
    · cases h

/-- Every transaction of the lists lies in the register map (R70, R74). -/
theorem transactionsOf_inMap (max : Nat) (i : Instr) : ∀ e ∈ transactionsOf max i, e.inMap = true := by
  cases i
  case forceconv a =>
    intro e he
    obtain rfl | rfl := mem_transactionsOf_forceconv he <;> rfl
  all_goals simp only [transactionsOf]; decide

/-- No list is longer than two transactions and the poll reads (R358). -/
theorem transactionsOf_length_le {max : Nat} (h : 1 ≤ max) (i : Instr) :
    (transactionsOf max i).length ≤ 2 + max := by
  cases i
  case forceconv a =>
    have hpolls : (if a = 1 then List.replicate max (Transaction.read 0x0E 1) else []).length ≤ max := by
      split <;> simp
    simp only [transactionsOf, List.length_append, List.length_cons, List.length_nil]
    omega
  all_goals simp only [transactionsOf, List.length_cons, List.length_nil]; omega

/-- The transaction is a write that reaches the register at `a`. -/
def Transaction.Writes (a : Nat) : Transaction → Prop
  | .read _ _ => False
  | .write addr n => addr ≤ a ∧ a < addr + n

/-- The writes of the lists reach no register but those R36 says are written. -/
theorem mem_writtenRegisters_of_writes {max a : Nat} {i : Instr} {e : Transaction} (he : e ∈ transactionsOf max i)
    (hw : e.Writes a) : a ∈ writtenRegisters i := by
  cases e with
  | read addr n => exact hw.elim
  | write addr n =>
    obtain ⟨hl, hu⟩ := hw
    cases i
    case forceconv b =>
      obtain he | he := mem_transactionsOf_forceconv he <;> cases he
      obtain rfl : a = 0x0E := by omega
      exact List.mem_singleton_self _
    all_goals simp [transactionsOf, writtenRegisters] at he ⊢ <;> omega

/-! ### What BUSY holds (R33, R34, R318) -/

/-- The bounds on what BUSY holds with `left` transactions before the operation. -/
structure Busy.Within (max left : Nat) (b : Busy) : Prop where
  phase : b.phase + left ≤ 2 + max
  buf : b.buf.length ≤ 7
  polls : ∀ k, b.k = some k → k + left ≤ max

namespace Busy.Within

variable {max left : Nat} {b : Busy}

theorem start {t : Option Byte} (h : left ≤ 2 + max) : Busy.Within max left { phase := 0, buf := [], t, k := none } :=
  ⟨by simpa using h, by simp, nofun⟩

theorem mono {left' : Nat} (h : b.Within max left) (hl : left' ≤ left) : b.Within max left' :=
  ⟨(Nat.add_le_add_left hl _).trans h.phase, h.buf, fun k hk => (Nat.add_le_add_left hl _).trans (h.polls k hk)⟩

theorem fill (h : b.Within max left) {v : List Byte} (hv : v.length ≤ 7) :
    Busy.Within max left { b with buf := v } := ⟨h.phase, hv, h.polls⟩

theorem holdT (h : b.Within max left) (v : Byte) : Busy.Within max left { b with t := some v } :=
  ⟨h.phase, h.buf, h.polls⟩

theorem startPolls (h : b.Within max left) (hl : left ≤ max) : Busy.Within max left { b with k := some 0 } :=
  ⟨h.phase, h.buf, fun _ hk => by cases hk; simpa using hl⟩

/-- An acknowledged transaction counts towards `phase` and is no longer before the operation. -/
theorem advance (h : b.Within max (left + 1)) : Busy.Within max left { b with phase := b.phase + 1 } :=
  ⟨by have := h.phase; simp only; omega, h.buf, (h.mono (Nat.le_succ left)).polls⟩

/-- An acknowledged poll read counts towards `phase` and `k`. -/
theorem countPoll (h : b.Within max (left + 1)) :
    Busy.Within max left { b with phase := b.phase + 1, k := b.k.map fun n => n + 1 } :=
  ⟨h.advance.phase, h.buf, fun k hk => by
    obtain ⟨n, hn, rfl⟩ := Option.map_eq_some_iff.1 hk
    have := h.polls n hn
    omega⟩

end Busy.Within

/-- Two changes of what BUSY holds are one. -/
theorem State.mapBusy_mapBusy (f g : Busy → Busy) (s : State) :
    (s.mapBusy g).mapBusy f = s.mapBusy (f ∘ g) := by
  cases hs : s.seq <;> simp [State.mapBusy, hs]

/-! ### The invariant of the machine -/

theorem State.Inv.tick {s : State} (h : s.Inv) : s.tick.Inv :=
  ⟨(tick_wf s).trans h.dev, h.events, h.response, h.busy, h.convPollMax⟩

theorem State.Inv.blockReset {s : State} (h : s.Inv) : s.blockReset.Inv :=
  ⟨h.dev, h.events, nofun, nofun, h.convPollMax⟩

theorem State.Inv.accept {s : State} (h : s.Inv) (frame : List Byte) (rest : List (List Byte)) :
    (s.accept frame rest).Inv :=
  ⟨h.tick.dev, h.events, nofun, h.busy, h.convPollMax⟩

/-- An operation starts with no transaction made. -/
theorem State.Inv.begin {s : State} (h : s.Inv) (hr : s.response = none) : s.begin.Inv :=
  ⟨h.dev, h.events, fun r he => by simp [hr] at he, fun _ hb => by cases hb; exact ⟨by simp, by simp, nofun⟩,
    h.convPollMax⟩

/-- The end of a command, with a response that belongs to it (R101, R350). -/
theorem State.Inv.respond {s : State} (h : s.Inv) {r : Response} (hr : responseFits s.command r = true) :
    (respond r s).Inv :=
  respond_cases r s (fun _ => h.blockReset) fun _ =>
    State.Inv.tick ⟨h.dev, h.events, fun _ he => ⟨rfl, by cases he; exact hr⟩, nofun, h.convPollMax⟩

/-- The invariant inside an operation with the transactions `l` before it: there is no response yet, and what BUSY holds
leaves room for `l`. -/
structure Underway (command : List Byte) (max : Nat) (l : List Transaction) (s : State) : Prop where
  dev : s.dev.wf = true
  events : ∀ e ∈ s.events, e.transaction.inMap = true
  list : ∀ e ∈ l, e.inMap = true
  response : s.response = none
  command : s.command = command
  busy : ∀ b, s.seq = .busy b → b.Within max l.length
  convPollMax : s.convPollMax = max
  max_pos : 1 ≤ max

/-- An operation starts with its list of transactions before it. -/
theorem State.Inv.begin_underway {s : State} (h : s.Inv) (hr : s.response = none) (i : Instr) :
    Underway s.command s.convPollMax (transactionsOf s.convPollMax i) s.begin where
  dev := h.dev
  events := h.events
  list := transactionsOf_inMap _ i
  response := hr
  command := rfl
  busy := fun _ hb => by cases hb; exact .start (transactionsOf_length_le h.convPollMax i)
  convPollMax := rfl
  max_pos := h.convPollMax

namespace Underway

variable {command : List Byte} {max : Nat} {l : List Transaction} {e : Transaction} {s : State}

theorem inv (h : Underway command max l s) : s.Inv where
  dev := h.dev
  events := h.events
  response := fun r hr => by simp [h.response] at hr
  busy := fun b hb => by
    obtain ⟨hphase, hbuf, hpolls⟩ := (h.busy b hb).mono (Nat.zero_le _)
    rw [h.convPollMax]
    exact ⟨hphase, hbuf, hpolls⟩
  convPollMax := h.convPollMax ▸ h.max_pos

/-- The first transaction is issued: the others are before the operation. -/
theorem issued (h : Underway command max (e :: l) s) {ev : Event} {d : Memory} (hev : ev.transaction = e)
    (hd : d.wf = true) : Underway command max l (s.issued ev d) where
  dev := by simpa using hd
  events := by
    rw [State.issued_events, List.forall_mem_append, List.forall_mem_singleton, hev]
    exact ⟨h.events, h.list e List.mem_cons_self⟩
  list := fun e' he => h.list e' (List.mem_cons_of_mem _ he)
  response := h.response
  command := h.command
  busy := fun b hb => (h.busy b hb).mono (Nat.le_succ _)
  convPollMax := h.convPollMax
  max_pos := h.max_pos

/-- What BUSY holds changes from one value to another within its bounds. -/
theorem mapBusy {left : Nat} {f : Busy → Busy} (h : Underway command max l s)
    (hb : ∀ b, s.seq = .busy b → b.Within max left) (hf : ∀ b, b.Within max left → (f b).Within max l.length) :
    Underway command max l (s.mapBusy f) where
  __ := h
  busy := fun b hs => by
    cases hq : s.seq with
    | idle => simp [hq] at hs
    | busy b' =>
      obtain rfl : f b' = b := by simpa [hq] using hs
      exact hf b' (hb b' hq)

/-- A read of the register map fills `buf` with at most 7 bytes. -/
theorem dataBytes_le {addr n : Nat} (h : Underway command max (.read addr n :: l) s) :
    (s.dataBytes addr n).length ≤ 7 := by
  have hm : (Transaction.read addr n).inMap = true := h.list _ List.mem_cons_self
  simp only [Transaction.inMap, decide_eq_true_eq] at hm
  simpa using hm.2.1

end Underway

/-- Every action of an operation keeps the invariant inside it, and where the operation comes to rest the invariant of the
machine holds. -/
theorem carries_inv {command : List Byte} {i : Instr} (hd : decode command = .ok i) (max : Nat) :
    Carries i max (Underway command max) State.Inv where
  convPollMax h := h.convPollMax
  reset h := h.inv.blockReset
  stuck h := h.inv
  respond h hr := h.inv.respond (hr.fits (h.command ▸ hd))
  readAck h := by
    have hv := h.dataBytes_le
    rw [State.fill, State.advance, State.mapBusy_mapBusy]
    exact (h.issued rfl h.dev).mapBusy h.busy fun b hb => (hb.fill hv).advance
  readFail reply h := h.issued rfl h.dev
  writeAck h := (h.issued rfl (by simpa using h.dev)).mapBusy h.busy fun b hb => hb.advance
  writeFail reply landed h := h.issued rfl (by simpa using h.dev)
  holdT v h := h.mapBusy h.busy fun b hb => hb.holdT v
  startPolls hl h := h.mapBusy h.busy fun b hb => hb.startPolls hl
  pollAck h := by
    have hv := h.dataBytes_le
    rw [pollRead, State.fill, State.advance, State.countPoll, State.mapBusy_mapBusy, State.mapBusy_mapBusy]
    exact (h.issued rfl h.dev).mapBusy h.busy fun b hb => (hb.fill hv).countPoll

theorem State.Inv.exec {s t : State} {i : Instr} (h : s.Inv) (hr : s.response = none) (hd : decode s.command = .ok i)
    (ht : exec i s = .next t) : t.Inv :=
  (carries_inv hd _).of_exec (h.begin_underway hr i) ht

/-- A frame that is no command starts with no response and ends at once with its own (R345). -/
theorem State.Inv.illegalCommand {s : State} {e : DecodeError} (h : s.Inv) (hr : s.response = none)
    (hd : decode s.command = .error e) : (illegalCommand s).Inv :=
  (h.begin hr).respond (by simp [responseFits, hd])

/-- Everything a step can do: a reset, a step of waiting, an operation, or the end of a frame that is no command. -/
theorem step_cases {P : State → Prop} {s t : State} (ht : step s = .next t)
    (reset : s.resetIn = some 0 → P s.blockReset.tick)
    (waits : s.resetIn ≠ some 0 → P s.tick)
    (runs : ∀ frame rest i, s.resetIn ≠ some 0 → s.seq = .idle → s.host = frame :: rest → decode frame = .ok i →
      exec i (s.accept frame rest) = .next t → P t)
    (illegal : ∀ frame rest e, s.resetIn ≠ some 0 → s.seq = .idle → s.host = frame :: rest →
      decode frame = .error e → P (illegalCommand (s.accept frame rest))) : P t := by
  unfold step at ht
  split at ht
  next hd => cases ht; exact reset ((resetDue_iff s).1 hd)
  next hd =>
    have hn : s.resetIn ≠ some 0 := mt (resetDue_iff s).2 hd
    split at ht
    next => cases ht; exact waits hn
    next hq =>
      split at ht
      next => cases ht; exact waits hn
      next frame rest hh =>
        split at ht
        next i hi => exact runs frame rest i hn hq hh hi ht
        next e he => cases ht; exact illegal frame rest e hn hq hh he

/-- Settles O56: a step is a reset, a wait, an operation or an illegal command, and each keeps the invariant. -/
theorem stepKeepsTheInvariant : Obligations.StepKeepsTheInvariant := by
  unfold Obligations.StepKeepsTheInvariant
  intro s t h ht
  refine step_cases ht ?reset ?waits ?runs ?illegal
  case reset => exact fun _ => h.blockReset.tick
  case waits => exact fun _ => h.tick
  case runs => exact fun frame rest i _ _ _ hd hx => (h.accept frame rest).exec rfl hd hx
  case illegal => exact fun frame rest e _ _ _ hd => (h.accept frame rest).illegalCommand rfl hd

/-! ### The device registers an operation leaves alone (R36) -/

/-- On a chip that is quiet the register at `a` holds `v`, and none of the transactions `l` before the operation writes it. -/
structure Holds (a : Nat) (v : Option Byte) (max : Nat) (l : List Transaction) (s : State) : Prop where
  quiet : s.Quiet
  reads : s.dev.read? a = v
  list : ∀ e ∈ l, ¬e.Writes a
  convPollMax : s.convPollMax = max

namespace Holds

variable {a : Nat} {v : Option Byte} {max : Nat} {l : List Transaction} {e : Transaction} {s : State}

theorem mapBusy (h : Holds a v max l s) (f : Busy → Busy) : Holds a v max l (s.mapBusy f) :=
  ⟨h.quiet.mono rfl fun _ => id, h.reads, h.list, h.convPollMax⟩

/-- A transaction that leaves the register at `a` alone is issued. -/
theorem issued (h : Holds a v max (e :: l) s) (ev : Event) {d : Memory} (hd : d.read? a = s.dev.read? a) :
    Holds a v max l (s.issued ev d) where
  quiet := h.quiet.issued ev d
  reads := by rw [h.quiet.issued_dev, hd, h.reads]
  list := fun e' he => h.list e' (List.mem_cons_of_mem _ he)
  convPollMax := h.convPollMax

/-- The write before the operation stores no byte, nor any first part of its bytes, in the register at `a`. -/
theorem read?_writeBytes {addr n : Nat} (h : Holds a v max (.write addr n :: l) s) {bytes : List Byte}
    (hn : bytes.length ≤ n) : (s.dev.writeBytes addr bytes).read? a = s.dev.read? a := by
  have hw : ¬(addr ≤ a ∧ a < addr + n) := h.list _ List.mem_cons_self
  exact Memory.read?_writeBytes_outside _ _ _ _ (by omega)

end Holds

/-- Every action of an operation leaves a register alone that its list does not write. -/
theorem carries_holds (i : Instr) (a : Nat) (v : Option Byte) (max : Nat) :
    Carries i max (Holds a v max) fun t => t.dev.read? a = v where
  convPollMax h := h.convPollMax
  reset h := h.reads
  stuck h := h.reads
  respond {_ _ r} h _ := by rw [h.quiet.respond_dev r, h.reads]
  readAck h := ((h.issued _ rfl).mapBusy _).mapBusy _
  readFail reply h := h.issued _ rfl
  writeAck h := (h.issued _ (h.read?_writeBytes le_rfl)).mapBusy _
  writeFail reply landed h := h.issued _ (h.read?_writeBytes (List.length_take_le' _ _))
  holdT v h := h.mapBusy _
  startPolls _ h := h.mapBusy _
  pollAck h := (((h.issued _ rfl).mapBusy _).mapBusy _).mapBusy _

/-- Settles O54: the writes of an operation's list reach only the registers R36 says it writes. -/
theorem otherDeviceRegistersUnchanged : Obligations.OtherDeviceRegistersUnchanged := by
  unfold Obligations.OtherDeviceRegistersUnchanged
  intro i s t a hq ht ha
  refine (carries_holds i a (s.dev.read? a) s.convPollMax).of_exec ?_ ht
  exact ⟨hq.mono rfl fun _ => id, rfl, fun e he hw => ha (mem_writtenRegisters_of_writes he hw), rfl⟩

end Sys2Proof.Machine
end

section
/-! PROOFS. The family 20_memory.md: what an operation can do, reply by reply, is said once as a relation (`Runs`,
`exec_runs`); the transactions issued and the device registers held at the end are inductions over it. -/

namespace Sys2Proof.Machine

/-! ### What a transaction leaves in the device registers -/

/-- The first bytes of a write of `v`, issued now, that reach their registers: all of them when it is acknowledged (R70,
R84). -/
def State.landing (s : State) (v : List Byte) : List Byte :=
  if (s.answerAt 0).reply = .ack then v else v.take (s.landedAt 0)

/-- The device registers as the transaction `e`, issued now, leaves them. -/
def State.devAfter (s : State) : Event → Memory
  | .read _ _ _ _ => s.dev
  | .write addr v _ => s.dev.writeBytes addr (s.landing v)

/-- The transaction `e`, issued now, comes out as `reply`. -/
structure State.Replies (s : State) (reply : Reply) (e : Event) : Prop where
  answer : (s.answerAt 0).reply = reply
  event : e.reply = reply

theorem State.landing_ack {s : State} (h : (s.answerAt 0).reply = .ack) (v : List Byte) : s.landing v = v := if_pos h

theorem State.landing_fail {s : State} (h : (s.answerAt 0).reply ≠ .ack) (v : List Byte) :
    s.landing v = v.take (s.landedAt 0) := if_neg h

/-! ### The runs of an operation -/

/-- The response `r`, not forced by a transaction, with which operation `i` may end when the transactions `l` are still
before it: it delivers results only after the whole list, but where a poll of FORCECONV ends early (R316). -/
structure Response.Closes (r : Response) (i : Instr) (l : List Transaction) : Prop where
  answers : r.Answers i
  status : r.status ≠ .busError
  whole : r.status.delivers = true → l = [] ∨ i = .forceconv 1

/-- Operation `i`, standing at `s` with the transactions `l` before it, comes to rest at `t`: each constructor is one thing
the sequencer can do next, with what makes it do so. -/
inductive Runs (i : Instr) : List Transaction → State → State → Prop
  | reset {l s} : s.resetIn = some 0 → Runs i l s s.blockReset
  | respond {l s r} : r.Closes i l → Runs i l s (respond r s)
  | mapBusy {l s t} (f : Busy → Busy) : Runs i l (s.mapBusy f) t → Runs i l s t
  | ack {l s t} (e : Event) : s.resetIn ≠ some 0 → s.Replies .ack e → Runs i l (s.issued e (s.devAfter e)) t →
    Runs i (e.transaction :: l) s t
  | nack {l s} (e : Event) : s.resetIn ≠ some 0 → s.Replies .nack e →
    Runs i (e.transaction :: l) s (raise .busError (s.issued e (s.devAfter e)))
  | silent {l s} (e : Event) : s.resetIn ≠ some 0 → s.Replies .silent e →
    Runs i (e.transaction :: l) s (s.issued e (s.devAfter e))

namespace Runs

variable {i : Instr} {l : List Transaction} {s t : State}

theorem of_advance (h : Runs i l s.advance t) : Runs i l s t := .mapBusy _ h

theorem of_countPoll (h : Runs i l s.countPoll t) : Runs i l s t := .mapBusy _ h

theorem of_holdT {v : Byte} (h : Runs i l (s.holdT v) t) : Runs i l s t := .mapBusy _ h

theorem of_holdK {n : Nat} (h : Runs i l (s.holdK n) t) : Runs i l s t := .mapBusy _ h

theorem of_fill {v : List Byte} (h : Runs i l (s.fill v) t) : Runs i l s t := .mapBusy _ h

/-- A status that delivers no results ends any operation. -/
theorem raise {st : Status} (h : st ≠ .illegalCommand ∧ st ≠ .busError ∧ st.delivers = false) :
    Runs i l s (raise st s) := by
  obtain ⟨hillegal, hbus, hd⟩ := h
  exact .respond ⟨⟨hillegal, by simp [hd]⟩, hbus, by simp [hd]⟩

theorem finish {results : List Byte} (hm : results.length = i.resultBytes) : Runs i [] s (finish results s) :=
  .respond ⟨⟨by simp, by simpa [Status.delivers] using hm⟩, by simp, fun _ => .inl rfl⟩

theorem finishChecked {ok : Bool} {results : List Byte} (hm : results.length = i.resultBytes) :
    Runs i [] s (finishChecked ok results s) := by
  cases ok with
  | true => exact .finish hm
  | false => exact .respond ⟨⟨by simp, by simpa [Status.delivers] using hm⟩, by simp, fun _ => .inl rfl⟩

/-- An argument check: what is done when it holds, or ARG_RANGE (R342). -/
theorem guard {ok : Bool} (h : Runs i l s t) : Runs i l s (if ok then t else Machine.raise .argRange s) := by
  cases ok with
  | true => exact h
  | false => exact .raise (by decide)

theorem memRead {addr n : Nat} {k : (Nat → Byte) → State → State}
    (hk : ∀ b u, u.convPollMax = s.convPollMax → Runs i l u (k b u)) :
    Runs i (.read addr n :: l) s (memRead addr n s k) :=
  memRead_cases addr n s k .reset
    (fun hn ha => .ack (.read addr n .ack (s.dataBytes addr n)) hn ⟨ha, rfl⟩ (of_fill (of_advance (hk _ _ rfl))))
    (fun hn ha => .nack (.read addr n .nack []) hn ⟨ha, rfl⟩)
    (fun hn ha => .silent (.read addr n .silent []) hn ⟨ha, rfl⟩)

theorem memWrite {addr n : Nat} {v : List Byte} {k : State → State} (hv : v.length = n)
    (hk : ∀ u, u.convPollMax = s.convPollMax → Runs i l u (k u)) :
    Runs i (.write addr n :: l) s (memWrite addr v s k) := by
  subst hv
  refine memWrite_cases addr v s k .reset (fun hn ha => ?_) (fun hn ha => ?_) (fun hn ha => ?_)
  · refine .ack (.write addr v .ack) hn ⟨ha, rfl⟩ (of_advance ?_)
    rw [State.devAfter, State.landing_ack ha]
    exact hk _ rfl
  · rw [← State.landing_fail (by simp [ha])]
    exact .nack (.write addr v .nack) hn ⟨ha, rfl⟩
  · rw [← State.landing_fail (by simp [ha])]
    exact .silent (.write addr v .silent) hn ⟨ha, rfl⟩

theorem rmw {addr : Nat} {clr set : Byte} {k : Byte → State → State}
    (hk : ∀ b u, u.convPollMax = s.convPollMax → Runs i l u (k b u)) :
    Runs i (.read addr 1 :: .write addr 1 :: l) s (rmw addr clr set s k) :=
  .memRead fun d _ hu => of_holdT (.memWrite rfl fun w hw => hk (d 0) w (hw.trans hu))

/-- A blocking FORCECONV with `n` poll reads left (R316). -/
theorem poll (n : Nat) (s : State) : Runs (.forceconv 1) (List.replicate n (.read 0x0E 1)) s (pollConv n s) := by
  induction n generalizing s with
  | zero => exact .raise (by decide)
  | succ n ih =>
    refine .memRead fun b u _ => of_countPoll ?_
    split
    · exact ih _
    · exact .respond ⟨⟨by simp, rfl⟩, by simp, fun _ => .inr rfl⟩

/-- What FORCECONV does after its read-modify-write (R316). -/
theorem afterRmw_forceconv {a : Byte} {wait : Bool} {max : Nat} (hw : boolArg a = some wait)
    (hmax : s.convPollMax = max) :
    Runs (.forceconv a) (if a = 1 then List.replicate max (.read 0x0E 1) else []) s
      (if wait then pollConv s.convPollMax (s.holdK 0) else Machine.finish [] s) := by
  have ha := boolArg_some hw
  cases wait with
  | true =>
    obtain rfl := ha.2 rfl
    rw [hmax]
    exact of_holdK (.poll max _)
  | false =>
    rw [if_neg (mt ha.1 nofun)]
    exact .finish rfl

end Runs

/-- Every operation runs with its whole list of transactions (R75) before it. -/
theorem exec_runs (i : Instr) (s : State) :
    ∃ t, exec i s = .next t ∧ Runs i (transactionsOf s.convPollMax i) s.begin t := by
  cases i with
  | bcdenc | tmpdec => exact ⟨_, rfl, .finish rfl⟩
  | bcddec | hrdec | dtdec | a1dec | a2dec => exact ⟨_, rfl, .finishChecked rfl⟩
  | hrenc | dow | dtenc | a1enc | a2enc => exact ⟨_, rfl, .guard (.finish rfl)⟩
  | gettmp | getvalid | getrun | getage => exact ⟨_, rfl, .memRead fun _ _ _ => .finish rfl⟩
  | getdt | geta1 | geta2 => exact ⟨_, rfl, .memRead fun _ _ _ => .finishChecked rfl⟩
  | setage => exact ⟨_, rfl, .memWrite rfl fun _ _ => .finish rfl⟩
  | seta1 | seta2 => exact ⟨_, rfl, .guard (.memWrite rfl fun _ _ => .finish rfl)⟩
  | latchaf => exact ⟨_, rfl, .rmw fun _ _ _ => .finish rfl⟩
  | sqwrate => exact ⟨_, rfl, .guard (.rmw fun _ _ _ => .finish rfl)⟩
  | setrun | set32k | sqwmode =>
    refine ⟨_, rfl, ?_⟩
    split
    · exact .rmw fun _ _ _ => .finish rfl
    · exact .raise (by decide)
  | setdt => exact ⟨_, rfl, .guard (.rmw fun _ _ _ => .memWrite rfl fun _ _ => .finish rfl)⟩
  | forceconv =>
    refine ⟨_, rfl, ?_⟩
    split
    next hw => exact .rmw fun _ _ hu => .afterRmw_forceconv hw hu
    next => exact .raise (by decide)

/-- `exec_runs` of a run that is given. -/
theorem Runs.of_exec {i : Instr} {s t : State} (h : exec i s = .next t) :
    Runs i (transactionsOf s.convPollMax i) s.begin t := by
  obtain ⟨u, hu, hr⟩ := exec_runs i s
  cases hu.symm.trans h
  exact hr

/-! ### The transactions an operation issues (R75) -/

/-- A change of what BUSY holds leaves the sequencer IDLE or BUSY as it was. -/
theorem Sequencer.map_eq_idle {f : Busy → Busy} {q : Sequencer} : q.map f = .idle ↔ q = .idle := by
  cases q <;> simp

/-- The end of an operation issues no transaction. -/
@[simp] theorem respond_events (r : Response) (s : State) : (respond r s).events = s.events :=
  respond_cases (P := fun t => t.events = s.events) r s (fun _ => rfl) fun _ => rfl

/-- Where a response ends an operation before any reset, it is the one that is written. -/
theorem respond_response {s : State} (r : Response) (h : s.resetIn = none) : (respond r s).response = some r := by
  rw [respond_none r h]; rfl

/-- The transactions a run issues are the first ones of the list before it. -/
theorem Runs.follows {i : Instr} {l : List Transaction} {s t : State} (h : Runs i l s t) :
    ∃ issued, t.events = s.events ++ issued ∧ issued.map Event.transaction <+: l := by
  induction h with
  | reset | respond => exact ⟨[], by simp, List.nil_prefix⟩
  | mapBusy f _ ih => exact ih
  | ack e _ _ _ ih =>
    obtain ⟨issued, hevents, hfirst⟩ := ih
    exact ⟨e :: issued, by simpa using hevents, List.cons_prefix_cons.2 ⟨rfl, hfirst⟩⟩
  | nack e | silent e => exact ⟨[e], by simp [Machine.raise], List.cons_prefix_cons.2 ⟨rfl, List.nil_prefix⟩⟩

/-- A run that delivers results issues the whole list before it, a blocking FORCECONV and a reset apart. -/
theorem Runs.whole {i : Instr} {l : List Transaction} {s t : State} (h : Runs i l s t) {r : Response}
    {issued : List Event} (hi : i ≠ .forceconv 1) (hs : s.seq ≠ .idle) (hn : s.resetIn = none) (ht : t.seq = .idle)
    (hr : t.response = some r) (hd : r.status.delivers = true) (he : t.events = s.events ++ issued) :
    issued.map Event.transaction = l := by
  induction h generalizing issued with
  | reset h0 => simp [hn] at h0
  | respond hc =>
    rw [respond_response _ hn] at hr
    cases hr
    obtain rfl | hf := hc.whole hd
    · simpa using he
    · exact (hi hf).elim
  | mapBusy f _ ih => exact ih (mt Sequencer.map_eq_idle.1 hs) hn ht hr he
  | @ack l s t e _ _ hrun ih =>
    obtain ⟨later, hlater, -⟩ := hrun.follows
    obtain rfl : e :: later = issued := by simpa [hlater] using he
    rw [List.map_cons, ih hs (by simp [hn]) ht hr hlater]
  | nack e =>
    rw [Machine.raise, respond_response _ (by simp [hn])] at hr
    cases hr
    cases hd
  | silent e => exact (hs ht).elim

/-- Settles O49: what a run issues is the first part of its list, and the whole of it where it delivers results. -/
theorem transactionsFollowTheList : Obligations.TransactionsFollowTheList := by
  unfold Obligations.TransactionsFollowTheList
  intro i s t ht
  have hrun := Runs.of_exec ht
  obtain ⟨issued, hevents, hfirst⟩ := hrun.follows
  refine ⟨issued, hevents, hfirst, fun r hn hidle hr hd hi => ?_⟩
  exact hrun.whole hi (by simp) hn hidle hr hd hevents

/-! ### The bytes the writes store, as numbers -/

/-- The weekday formula of R180 is the machine's for every month there is. -/
theorem dayOfWeek_eq_weekday {m : Nat} (h1 : 1 ≤ m) (h12 : m ≤ 12) (y d : Nat) :
    dayOfWeek y m d = Reading.weekday y m d := by
  interval_cases m <;> rfl

theorem bcdEnc_toBcd (v : Nat) : (bcdEnc v).toNat = Reading.toBcd v := bcdEnc_toNat v

/-- The bytes of a date-time in range (R183). -/
theorem dtEnc_toNat {y : Year} {mo d h mi s : Byte}
    (hok : Reading.dtOk y.toNat mo.toNat d.toNat h.toNat mi.toNat s.toNat) :
    (dtEnc (dtOf y mo d h mi s)).map BitVec.toNat =
      Reading.dtBytes y.toNat mo.toNat d.toNat h.toNat mi.toNat s.toNat := by
  obtain ⟨⟨-, -, hm1, hm12, -, -⟩, -, -, -⟩ := hok
  simp only [dtEnc, dtOf, hourEnc, Reading.dtBytes, List.map_cons, List.map_nil, bcdEnc_toBcd,
    dayOfWeek_eq_weekday hm1 hm12]

/-- A field of high bits beside a lower value adds up with it. -/
theorem or_high_toNat {x y : Byte} {n a : Nat} (hx : x.toNat < 2 ^ n) (hy : y.toNat = 2 ^ n * a) :
    (x ||| y).toNat = x.toNat + 2 ^ n * a := by
  rw [BitVec.toNat_or, hy, Nat.lor_comm, ← Nat.two_pow_add_eq_or_of_lt hx, Nat.add_comm]

/-- The BCD byte of a value of at most 79 leaves bit 7 free, and of at most 39 bits 7:6. -/
theorem toBcd_lt {v : Nat} : (v ≤ 79 → Reading.toBcd v < 128) ∧ (v ≤ 39 → Reading.toBcd v < 64) := by
  unfold Reading.toBcd; omega

/-- An alarm's time byte (R114, R115): the BCD value, and a flag in bit 7. -/
theorem alarmTime_toNat {v n : Nat} (hv : v ≤ 79) :
    (bcdEnc v ||| bitAt (decide (n % 2 = 1)) 7).toNat = Reading.toBcd v + 128 * (n % 2) := by
  have hflag : (bitAt (decide (n % 2 = 1)) 7).toNat = 2 ^ 7 * (n % 2) := by
    obtain h | h := Nat.mod_two_eq_zero_or_one n <;> rw [h] <;> rfl
  rw [or_high_toNat (by rw [bcdEnc_toBcd]; exact toBcd_lt.1 hv) hflag, bcdEnc_toBcd]
  rfl

/-- An alarm's day-of byte (R114, R115): the BCD value, and two flags in bits 7:6. -/
theorem alarmDay_toNat {v k : Nat} {f : Byte} (hv : v ≤ 31) (hf : f.toNat / 2 ^ k < 4) :
    (bcdEnc v ||| (f >>> k) <<< 6).toNat = Reading.toBcd v + 64 * (f.toNat / 2 ^ k) := by
  have hflags : ((f >>> k) <<< 6).toNat = 2 ^ 6 * (f.toNat / 2 ^ k) := by
    rw [BitVec.toNat_shiftLeft, BitVec.toNat_ushiftRight, Nat.shiftLeft_eq, Nat.shiftRight_eq_div_pow]
    omega
  rw [or_high_toNat (by rw [bcdEnc_toBcd]; exact toBcd_lt.2 (by omega)) hflags, bcdEnc_toBcd]
  rfl

theorem mask0F_toNat (b : Byte) : (b &&& 0x0F#8).toNat = b.toNat % 16 := lowNibble_eq b

/-- The bytes of an alarm-one setting in range (R241). -/
theorem a1Enc_toNat {s mi h dy f : Byte} (hok : Reading.alarmOk s.toNat mi.toNat h.toNat dy.toNat) :
    (a1Enc (a1Of s mi h dy f)).map BitVec.toNat = Reading.a1Bytes s.toNat mi.toNat h.toNat dy.toNat f.toNat := by
  obtain ⟨hs, hmi, hh, -, hdy⟩ := hok
  simp only [a1Enc, a1Of, hourEnc, bit_eq, List.map_cons, List.map_nil, Reading.a1Bytes]
  rw [alarmTime_toNat (by omega), alarmTime_toNat (by omega), alarmTime_toNat (by omega),
    alarmDay_toNat hdy (by rw [mask1F_toNat]; omega), mask1F_toNat]
  simp only [List.cons.injEq, and_true]
  omega

/-- The bytes of an alarm-two setting in range (R246). -/
theorem a2Enc_toNat {mi h dy f : Byte} (hok : Reading.alarmOk 0 mi.toNat h.toNat dy.toNat) :
    (a2Enc (a2Of mi h dy f)).map BitVec.toNat = Reading.a2Bytes mi.toNat h.toNat dy.toNat f.toNat := by
  obtain ⟨-, hmi, hh, -, hdy⟩ := hok
  simp only [a2Enc, a2Of, hourEnc, bit_eq, List.map_cons, List.map_nil, Reading.a2Bytes]
  rw [alarmTime_toNat (by omega), alarmTime_toNat (by omega), alarmDay_toNat hdy (by rw [mask0F_toNat]; omega),
    mask0F_toNat]
  simp only [List.cons.injEq, and_true]
  omega

/-! ### What the registers hold after a write -/

/-- What a register holds after a burst: the byte of the burst that reaches it, or what it held before. -/
theorem Memory.read?_writeBytes {m : Memory} (hm : m.wf = true) {addr : Nat} {v : List Byte}
    (hv : addr + v.length ≤ 19) (a : Nat) :
    (m.writeBytes addr v).read? a = (if addr ≤ a then v[a - addr]? else none).or (m.read? a) := by
  by_cases h : addr ≤ a ∧ a < addr + v.length
  · obtain ⟨hl, hu⟩ := h
    obtain ⟨i, rfl⟩ := Nat.exists_eq_add_of_le hl
    have hi : i < v.length := by omega
    rw [Memory.read?_writeBytes_inside m addr i v hi (m.wf_read? _ hm (by omega))]
    simp [hi]
  · have hnone : (if addr ≤ a then v[a - addr]? else none) = none := by
      split
      · exact List.getElem?_eq_none (by omega)
      · rfl
    rw [Memory.read?_writeBytes_outside _ _ _ _ (by omega), hnone, Option.none_or]

/-- The registers of a burst hold its bytes. -/
theorem Memory.burst_toNat {m : Memory} (hm : m.wf = true) {addr n : Nat} {v : List Byte} {values : List Nat}
    (hn : v.length = n) (hv : addr + n ≤ 19) (hvalues : v.map BitVec.toNat = values) :
    (List.range n).map (fun j => ((m.writeBytes addr v).read? (addr + j)).map BitVec.toNat) = values.map some := by
  subst hn hvalues
  refine List.ext_getElem (by simp) fun j hj _ => ?_
  have hj : j < v.length := by simpa using hj
  simp [Memory.read?_writeBytes hm hv, hj]

/-- Of a write that is not acknowledged as many bytes land as the statements say (R84, log 14). -/
theorem landedOf_eq_landedAt (s : State) (j : Nat) : landedOf s j = s.landedAt j := by
  unfold landedOf State.landedAt
  cases s.transport <;> cases (s.answerAt j).reply <;> simp

/-- What a register holds after a transaction: what the transaction stores there, or what it held before. -/
theorem State.devAfter_read? {s : State} {e : Event} (hs : s.dev.wf = true) (hm : e.transaction.inMap = true)
    (he : e.reply = (s.answerAt 0).reply) (a : Nat) :
    (s.devAfter e).read? a = (e.stores (s.landedAt 0) a).or (s.dev.read? a) := by
  cases e with
  | read => rfl
  | write addr v r =>
    obtain rfl : r = (s.answerAt 0).reply := he
    simp only [Event.transaction, Transaction.inMap, decide_eq_true_eq] at hm
    have hlen : (s.landing v).length ≤ v.length := by unfold State.landing; split <;> simp
    rw [State.devAfter, Memory.read?_writeBytes hs (by omega), Event.stores]
    by_cases ha : (s.answerAt 0).reply = .ack
    · simp [State.landing_ack ha, ha]
    · simp only [State.landing_fail ha, ha, List.getElem?_take, false_or, ite_and]

/-- An acknowledged write stores all of its bytes, whatever the answer says of a first part. -/
theorem Event.stores_ack {e : Event} (h : e.reply = .ack) (landed landed' a : Nat) :
    e.stores landed a = e.stores landed' a := by
  cases e with
  | read => rfl
  | write addr v r =>
    obtain rfl : r = .ack := h
    simp [Event.stores]

/-- A transaction that does not write a register stores nothing there. -/
theorem Event.stores_of_not_writes {e : Event} {a : Nat} (h : ¬e.transaction.Writes a) (landed : Nat) :
    e.stores landed a = none := by
  cases e with
  | read => rfl
  | write addr v r =>
    have h : ¬(addr ≤ a ∧ a < addr + v.length) := h
    rw [Event.stores]
    split
    · exact List.getElem?_eq_none (by omega)
    · rfl

@[simp] theorem heldAfter_nil (landed : Nat) (m : Memory) (a : Nat) : heldAfter landed m [] a = m.read? a := by
  simp [heldAfter]

theorem heldAfter_singleton (landed : Nat) (m : Memory) (e : Event) (a : Nat) :
    heldAfter landed m [e] a = (e.stores landed a).or (m.read? a) := by
  simp [heldAfter]

/-- What a register holds after transactions is what it holds after the others, from the registers as the first leaves
them. -/
theorem heldAfter_cons {landed a : Nat} {m m' : Memory} {e : Event}
    (h : m'.read? a = (e.stores landed a).or (m.read? a)) (es : List Event) :
    heldAfter landed m (e :: es) a = heldAfter landed m' es a := by
  simp [heldAfter, h, List.findSome?_append, Option.or_assoc]

/-- Transactions that do not write a register leave it as it was. -/
theorem heldAfter_of_not_writes {landed a : Nat} {m : Memory} {es : List Event}
    (h : ∀ e ∈ es, ¬e.transaction.Writes a) : heldAfter landed m es a = m.read? a := by
  induction es with
  | nil => exact heldAfter_nil _ _ _
  | cons e es ih =>
    obtain ⟨he, hes⟩ := List.forall_mem_cons.1 h
    rw [heldAfter_cons (m' := m) (by simp [Event.stores_of_not_writes he]), ih hes]

/-! ### What the registers hold after an operation -/

theorem State.StillFor.mono {s : State} {m n : Nat} (h : s.StillFor n) (hm : m ≤ n) : s.StillFor m :=
  fun j hj => h j (hj.trans_le hm)

/-- A write keeps the form of the device memory. -/
@[simp] theorem State.devAfter_wf (s : State) (e : Event) : (s.devAfter e).wf = s.dev.wf := by
  cases e <;> simp [State.devAfter]

/-- What the registers hold after a run on a chip that is still: what the last of its writes stored there, of one that is
not acknowledged the first part that landed (R73, R84). -/
theorem Runs.held {i : Instr} {l : List Transaction} {s t : State} (h : Runs i l s t) {issued : List Event}
    (hstill : s.StillFor (l.length + 1)) (hs : s.dev.wf = true) (hl : ∀ e ∈ l, e.inMap = true)
    (he : t.events = s.events ++ issued) (a : Nat) :
    t.dev.read? a = heldAfter (s.landedAt (issued.length - 1)) s.dev issued a := by
  induction h generalizing issued with
  | reset =>
    obtain rfl : issued = [] := by simpa using he
    simp
  | respond =>
    obtain rfl : issued = [] := by simpa using he
    rw [hstill.respond_dev, heldAfter_nil]
  | mapBusy f _ ih => exact ih hstill hs hl he
  | @ack l s t e _ hreply hrun ih =>
    obtain ⟨later, hlater, -⟩ := hrun.follows
    obtain rfl : e :: later = issued := by simpa [hlater] using he
    obtain ⟨hm, hl⟩ := List.forall_mem_cons.1 hl
    have hdev := hstill.issued_dev e (s.devAfter e)
    have hfirst := State.devAfter_read? hs hm (hreply.event.trans hreply.answer.symm) a
    rw [ih (hstill.issued _ _) (by simpa [hdev] using hs) hl hlater, hdev, landedAt_issued]
    rw [Event.stores_ack hreply.event _ (s.landedAt later.length)] at hfirst
    rw [List.length_cons, Nat.add_sub_cancel, heldAfter_cons hfirst]
    cases later with
    | nil => simp
    | cons => rfl
  | @nack l s e _ hreply =>
    obtain rfl : [e] = issued := by simpa [Machine.raise] using he
    rw [Machine.raise, (hstill.issued _ _).respond_dev, hstill.issued_dev]
    have hfirst := State.devAfter_read? hs (hl _ List.mem_cons_self) (hreply.event.trans hreply.answer.symm) a
    exact hfirst.trans (heldAfter_singleton _ _ _ _).symm
  | @silent l s e _ hreply =>
    obtain rfl : [e] = issued := by simpa using he
    rw [hstill.issued_dev]
    have hfirst := State.devAfter_read? hs (hl _ List.mem_cons_self) (hreply.event.trans hreply.answer.symm) a
    exact hfirst.trans (heldAfter_singleton _ _ _ _).symm

/-! ### Acknowledged writes and read-modify-writes -/

/-- An operation that ends after a write leaves in the registers what of the write reaches them. -/
theorem memWrite_finish_dev {s : State} (h : s.StillFor 2) (hn : s.resetIn = none) (addr : Nat) (v : List Byte) :
    (memWrite addr v s fun s => finish [] s).dev = s.dev.writeBytes addr (s.landing v) := by
  refine memWrite_cases (P := fun t => t.dev = s.dev.writeBytes addr (s.landing v)) addr v s _
    (fun h0 => by simp [hn] at h0) (fun _ ha => ?_) (fun _ ha => ?_) (fun _ ha => ?_)
  · rw [State.landing_ack ha]
    exact ((h.issued _ _).respond_dev _).trans (h.issued_dev _ _)
  · rw [State.landing_fail (by simp [ha])]
    exact ((h.issued _ _).respond_dev _).trans (h.issued_dev _ _)
  · rw [State.landing_fail (by simp [ha])]
    exact h.issued_dev _ _

/-- On a quiet chip an operation of one acknowledged write leaves its bytes in the registers. -/
theorem State.Quiet.write_dev {s : State} (h : s.Quiet) (hn : s.resetIn = none) (ha : (s.answerAt 0).reply = .ack)
    {addr : Nat} {v : List Byte} :
    (memWrite addr v s.begin fun s => finish [] s).dev = s.dev.writeBytes addr v := by
  rw [memWrite_finish_dev (s := s.begin) (h.stillFor 2) hn, State.landing_ack (s := s.begin) ha]
  rfl

/-- The state after a read-modify-write whose two transactions are acknowledged. -/
def rmwDone (addr : Nat) (clr set : Byte) (s : State) : State :=
  ((rmwRead addr s).issued (.write addr [rmwByte (s.dataAt addr 0) clr set] .ack)
    ((rmwRead addr s).dev.writeBytes addr [rmwByte (s.dataAt addr 0) clr set])).advance

section
variable {addr : Nat} {clr set : Byte} {s : State}

theorem rmw_eq_rmwDone {k : Byte → State → State} (hn : s.resetIn = none) (h0 : (s.answerAt 0).reply = .ack)
    (h1 : (s.answerAt 1).reply = .ack) :
    rmw addr clr set s k = k (s.dataAt addr 0) (rmwDone addr clr set s) := rmw_ack addr clr set k hn h0 h1

theorem rmwDone_events : (rmwDone addr clr set s).events = s.events ++
    [.read addr 1 .ack [s.dataAt addr 0], .write addr [rmwByte (s.dataAt addr 0) clr set] .ack] := by
  simp [rmwDone, rmwRead, State.dataBytes, List.range_succ]

theorem rmwDone_resetIn (hn : s.resetIn = none) : (rmwDone addr clr set s).resetIn = none := by
  simp [rmwDone, rmwRead, hn]

theorem rmwDone_answerAt (j : Nat) : (rmwDone addr clr set s).answerAt j = s.answerAt (j + 2) := by
  simp [rmwDone, rmwRead]

theorem rmwDone_landedAt (j : Nat) : (rmwDone addr clr set s).landedAt j = s.landedAt (j + 2) := by
  simp [rmwDone, rmwRead]

theorem State.StillFor.rmwDone {n : Nat} (h : s.StillFor (n + 2)) : (rmwDone addr clr set s).StillFor n :=
  State.StillFor.issued (s := rmwRead addr s) (h.issued _ _) _ _

/-- On a chip that is still an acknowledged read-modify-write stores its byte. -/
theorem State.StillFor.rmwDone_dev {n : Nat} (h : s.StillFor (n + 2)) :
    (Machine.rmwDone addr clr set s).dev = s.dev.writeBytes addr [rmwByte (s.dataAt addr 0) clr set] := by
  have hread : (rmwRead addr s).dev = s.dev := h.issued_dev _ _
  have hstill : (rmwRead addr s).StillFor (n + 1) := h.issued _ _
  rw [← hread]
  exact hstill.issued_dev _ _

end

/-! ### The setters (R281) -/

theorem boolArg_of_boolean {a : Byte} (h : WellFormed.boolean a = true) : ∃ b, boolArg a = some b := by
  have h : a.toNat ≤ 1 := of_decide_eq_true h
  obtain h | h := Nat.le_one_iff_eq_zero_or_eq_one.1 h <;> simp [boolArg, h]

theorem sqwModeOf_of_le {n : Nat} (h : n ≤ 5) : ∃ m, sqwModeOf n = some m := by
  interval_cases n <;> exact ⟨_, rfl⟩

/-- The argument check of a date-time in range holds (R181). -/
theorem dtArgsOk_of_dtOk {y : Year} {mo d h mi s : Byte}
    (hok : Reading.dtOk y.toNat mo.toNat d.toNat h.toNat mi.toNat s.toNat) : dtArgsOk (dtOf y mo d h mi s) = true :=
  Bool.and_eq_true_iff.2 (hok.imp decide_eq_true decide_eq_true)

theorem dtOk_of_wellFormed {y : Year} {mo d h mi s : Byte} (hw : (Instr.setdt y mo d h mi s).wellFormed = true) :
    Reading.dtOk y.toNat mo.toNat d.toNat h.toNat mi.toNat s.toNat := by
  simpa [Instr.wellFormed, WellFormed.date, WellFormed.hour, WellFormed.sixty, and_assoc] using hw

/-- Operation `i` from `s` is a read-modify-write of the register at `addr`, after which it runs on with transactions that
leave that register alone. -/
def IsSetter (i : Instr) (addr : Nat) (s : State) : Prop :=
  ∃ clr set k l, exec i s = .next (rmw addr clr set s.begin k) ∧ (∀ e ∈ l, e.inMap = true ∧ ¬e.Writes addr) ∧
    ∀ b u, u.convPollMax = s.convPollMax → Runs i l u (k b u)

/-- A read-modify-write with nothing after it but the response. -/
theorem IsSetter.of_finish {i : Instr} {addr : Nat} {s : State} (clr set : Byte) (results : Byte → List Byte)
    (h : exec i s = .next (rmw addr clr set s.begin fun t s => finish (results t) s))
    (hm : ∀ t, (results t).length = i.resultBytes) : IsSetter i addr s :=
  ⟨clr, set, _, [], h, nofun, fun b _ _ => .finish (hm b)⟩

/-- The operations of R281 with operands in their domains are setters of their registers. -/
theorem exec_isSetter {i : Instr} {addr : Nat} {mask : Byte} (hw : i.wellFormed = true)
    (ho : ownedBits i = some (addr, mask)) (s : State) : IsSetter i addr s := by
  cases i <;> cases ho
  case setdt y mo d h mi sec =>
    refine ⟨maskOSF, 0x00#8, fun _ s => memWrite 0x00 (dtEnc (dtOf y mo d h mi sec)) s fun s => finish [] s,
      [.write 0x00 7], ?_, ?_, fun _ _ _ => .memWrite rfl fun _ _ => .finish rfl⟩
    · rw [exec, execSetdt, if_pos (dtArgsOk_of_dtOk (dtOk_of_wellFormed hw))]
    · exact List.forall_mem_singleton.2 ⟨by decide, fun h => by simp [Transaction.Writes] at h⟩
  case setrun a =>
    obtain ⟨run, hrun⟩ := boolArg_of_boolean hw
    refine .of_finish maskEOSC (if run then 0x00#8 else maskEOSC) (fun _ => []) ?_ fun _ => rfl
    rw [exec, execSetrun, hrun]
  case set32k a =>
    obtain ⟨on, hon⟩ := boolArg_of_boolean hw
    refine .of_finish maskEN32KHZ (a <<< 3) (fun _ => []) ?_ fun _ => rfl
    rw [exec, execSet32k, hon]
  case sqwmode a =>
    obtain ⟨m, hm⟩ := sqwModeOf_of_le (of_decide_eq_true hw)
    refine .of_finish modeClear (modeSet m) (fun _ => []) ?_ fun _ => rfl
    rw [exec, execSqwmode, hm]
  case sqwrate a =>
    refine .of_finish maskRS (a <<< 3) (fun _ => []) ?_ fun _ => rfl
    rw [exec, execSqwrate, if_pos (show rateArgOk a = true from hw)]
  case latchaf => exact .of_finish _ _ (fun t => [t &&& (maskA1F ||| maskA2F)]) rfl fun _ => rfl
  case forceconv a =>
    obtain ⟨wait, hwait⟩ := boolArg_of_boolean hw
    refine ⟨0x00#8, maskCONV, _, _, ?_, fun e he => ?_, fun _ _ hu => .afterRmw_forceconv hwait hu⟩
    · rw [exec, execForceconv, hwait]
    · split at he
      · obtain rfl := List.eq_of_mem_replicate he
        exact ⟨rfl, id⟩
      · cases he

/-- The registers of R281 are the control and the status register. -/
theorem ownedBits_addr_lt {i : Instr} {addr : Nat} {mask : Byte} (ho : ownedBits i = some (addr, mask)) :
    addr < 19 := by
  cases i <;> cases ho <;> decide

/-- A setter whose read-modify-write is acknowledged leaves the byte it wrote in its register. -/
theorem exec_setter_held {i : Instr} {addr : Nat} {mask : Byte} {s : State} (hq : s.Quiet) (hn : s.resetIn = none)
    (hs : s.dev.wf = true) (h0 : (s.answerAt 0).reply = .ack) (h1 : (s.answerAt 1).reply = .ack)
    (hw : i.wellFormed = true) (ho : ownedBits i = some (addr, mask)) :
    ∃ t w later, exec i s = .next t ∧
      t.events = s.events ++ .read addr 1 .ack [s.dataAt addr 0] :: .write addr [w] .ack :: later ∧
      t.dev.read? addr = some w := by
  obtain ⟨clr, set, k, l, hexec, hl, hk⟩ := exec_isSetter hw ho s
  have hstill : s.begin.StillFor (l.length + 1 + 2) := hq.stillFor _
  have hdev : (rmwDone addr clr set s.begin).dev = s.dev.writeBytes addr [rmwByte (s.dataAt addr 0) clr set] :=
    hstill.rmwDone_dev
  have hwf : (rmwDone addr clr set s.begin).dev.wf = true := by rw [hdev, Memory.wf_writeBytes]; exact hs
  have hrun := hk (s.begin.dataAt addr 0) (rmwDone addr clr set s.begin) rfl
  obtain ⟨later, hlater, hfirst⟩ := hrun.follows
  refine ⟨_, rmwByte (s.dataAt addr 0) clr set, later,
    hexec.trans (congrArg _ (rmw_eq_rmwDone hn h0 h1)), by simpa [rmwDone_events] using hlater, ?_⟩
  have hleaves : ∀ e ∈ later, ¬e.transaction.Writes addr := fun e he =>
    (hl _ (hfirst.subset (List.mem_map_of_mem he))).2
  rw [hrun.held hstill.rmwDone hwf (fun e he => (hl e he).1) hlater, heldAfter_of_not_writes hleaves, hdev,
    Memory.read?_writeBytes hs (ownedBits_addr_lt ho)]
  simp

/-! ### SETDT -/

theorem rmwByte_maskOSF (b : Byte) : rmwByte b maskOSF 0x00#8 = b &&& 0x7F#8 := by
  simp [rmwByte, maskOSF]

/-- SETDT after an acknowledged read-modify-write: OSF is clear, and of the time write is stored what reaches the
registers. -/
theorem exec_setdt_dev {y : Year} {mo d h mi sec : Byte} {s : State}
    (hok : Reading.dtOk y.toNat mo.toNat d.toNat h.toNat mi.toNat sec.toNat) (hstill : s.StillFor 4)
    (hn : s.resetIn = none) (h0 : (s.answerAt 0).reply = .ack) (h1 : (s.answerAt 1).reply = .ack) :
    ∃ t, exec (.setdt y mo d h mi sec) s = .next t ∧
      t.dev = (s.dev.writeBytes 0x0F [s.dataAt 0x0F 0 &&& 0x7F#8]).writeBytes 0x00
        (if (s.answerAt 2).reply = .ack then dtEnc (dtOf y mo d h mi sec)
          else (dtEnc (dtOf y mo d h mi sec)).take (s.landedAt 2)) := by
  have hbegin : s.begin.StillFor (2 + 2) := hstill
  refine ⟨_, rfl, ?_⟩
  rw [if_pos (dtArgsOk_of_dtOk hok), rmw_eq_rmwDone (s := s.begin) hn h0 h1,
    memWrite_finish_dev hbegin.rmwDone (rmwDone_resetIn hn), hbegin.rmwDone_dev, State.landing,
    rmwDone_answerAt, rmwDone_landedAt, dataAt_begin, rmwByte_maskOSF]
  rfl

/-- The status register keeps OSF clear beside a time write at 0x00. -/
theorem Memory.read?_status_beside_time {m : Memory} (hm : m.wf = true) (b : Byte) {v : List Byte} (hv : v.length ≤ 7) :
    ((m.writeBytes 0x0F [b]).writeBytes 0x00 v).read? 0x0F = some b := by
  rw [Memory.read?_writeBytes_outside _ _ _ _ (by omega), Memory.read?_writeBytes hm (by simp)]
  rfl

/-- SETDT whose transactions are acknowledged: OSF is clear, and the time's registers hold its encoding (R183, R188). -/
theorem exec_setdt_held {y : Year} {mo d h mi sec : Byte} {s : State}
    (hok : Reading.dtOk y.toNat mo.toNat d.toNat h.toNat mi.toNat sec.toNat) (hq : s.Quiet) (hn : s.resetIn = none)
    (hs : s.dev.wf = true) (hack : ∀ j, j ≤ 2 → (s.answerAt j).reply = .ack) :
    ∃ t, exec (.setdt y mo d h mi sec) s = .next t ∧
      t.dev.read? 0x0F = some (s.dataAt 0x0F 0 &&& 0x7F) ∧
      (List.range 7).map (fun j => (t.dev.read? j).map BitVec.toNat) =
        (Reading.dtBytes y.toNat mo.toNat d.toNat h.toNat mi.toNat sec.toNat).map some := by
  obtain ⟨t, ht, hdev⟩ := exec_setdt_dev hok (hq.stillFor 4) hn (hack 0 (by decide)) (hack 1 (by decide))
  rw [if_pos (hack 2 le_rfl)] at hdev
  refine ⟨t, ht, ?_, ?_⟩
  · rw [hdev]
    exact Memory.read?_status_beside_time hs _ le_rfl
  · rw [hdev]
    simpa using Memory.burst_toNat (addr := 0) (n := 7) (by simpa using hs) rfl (by decide) (dtEnc_toNat hok)

/-- SETDT whose time write is not acknowledged: OSF is clear, and a first part of the time is stored (R84, R188). -/
theorem exec_setdt_partly_held {y : Year} {mo d h mi sec : Byte} {s : State}
    (hok : Reading.dtOk y.toNat mo.toNat d.toNat h.toNat mi.toNat sec.toNat) (hstill : s.StillFor 4)
    (hn : s.resetIn = none) (hs : s.dev.wf = true) (h0 : (s.answerAt 0).reply = .ack)
    (h1 : (s.answerAt 1).reply = .ack) (h2 : (s.answerAt 2).reply ≠ .ack) :
    ∃ t, exec (.setdt y mo d h mi sec) s = .next t ∧ t.dev.read? 0x0F = some (s.dataAt 0x0F 0 &&& 0x7F) ∧
      ∀ (j : Nat) (b : Byte), (dtEnc (dtOf y mo d h mi sec))[j]? = some b →
        t.dev.read? j = if j < landedOf s 2 then some b else s.dev.read? j := by
  obtain ⟨t, ht, hdev⟩ := exec_setdt_dev hok hstill hn h0 h1
  rw [if_neg h2] at hdev
  refine ⟨t, ht, ?_, fun j b hb => ?_⟩
  · rw [hdev]
    exact Memory.read?_status_beside_time hs _ (List.length_take_le' _ _)
  · have hj : j < 7 := (List.getElem?_eq_some_iff.1 hb).1
    have hlen : 0x00 + ((dtEnc (dtOf y mo d h mi sec)).take (s.landedAt 2)).length ≤ 19 := by simp [dtEnc]
    rw [hdev, landedOf_eq_landedAt, Memory.read?_writeBytes (by simpa using hs) hlen,
      Memory.read?_writeBytes_outside s.dev _ _ _ (by omega)]
    simp only [Nat.zero_le, if_true, Nat.sub_zero, List.getElem?_take, hb]
    split <;> rfl

/-! ### Every operation -/

/-- Every list leaves an action for the response within `4 + CONV_POLL_MAX`, whatever that is. -/
theorem transactionsOf_length_lt (max : Nat) (i : Instr) : (transactionsOf max i).length + 1 ≤ 4 + max := by
  obtain rfl | hmax := Nat.eq_zero_or_pos max
  · cases i <;> simp [transactionsOf]
  · have := transactionsOf_length_le hmax i
    omega

/-- On a chip that is still every register holds what the operation's transactions leave in it (R73, R84). -/
theorem exec_held {i : Instr} {s t : State} {issued : List Event} (hstill : s.StillFor (4 + s.convPollMax))
    (hs : s.dev.wf = true) (ht : exec i s = .next t) (hevents : t.events = s.events ++ issued) (a : Nat) :
    t.dev.read? a = heldAfter (landedOf s (issued.length - 1)) s.dev issued a := by
  rw [landedOf_eq_landedAt]
  exact (Runs.of_exec ht).held (s := s.begin) (hstill.mono (transactionsOf_length_lt _ i)) hs (transactionsOf_inMap _ i)
    hevents a

/-- Settles O55: the registers hold what the operation's writes stored in them. -/
theorem acknowledgedWritesAreHeld : Obligations.AcknowledgedWritesAreHeld := by
  unfold Obligations.AcknowledgedWritesAreHeld
  refine ⟨fun s hq hn hs hack => ⟨?setage, ?seta1, ?seta2, ?setdt, ?setters⟩, ?everyOperation, ?timeWriteFails⟩
  case setage =>
    intro a
    refine ⟨_, rfl, ?_⟩
    rw [hq.write_dev hn (hack 0 (by decide)), Memory.read?_writeBytes hs (by simp)]
    rfl
  case seta1 =>
    intro sec mi h dy f hok
    refine ⟨_, rfl, ?_⟩
    rw [if_pos (show a1ArgsOk (a1Of sec mi h dy f) = true from decide_eq_true hok),
      hq.write_dev hn (hack 0 (by decide))]
    exact Memory.burst_toNat hs rfl (by decide) (a1Enc_toNat hok)
  case seta2 =>
    intro mi h dy f hok
    refine ⟨_, rfl, ?_⟩
    rw [if_pos (show a2ArgsOk (a2Of mi h dy f) = true from decide_eq_true hok.2),
      hq.write_dev hn (hack 0 (by decide))]
    exact Memory.burst_toNat hs rfl (by decide) (a2Enc_toNat hok)
  case setdt => exact fun y mo d h mi sec hok => exec_setdt_held hok hq hn hs hack
  case setters => exact fun i addr mask => exec_setter_held hq hn hs (hack 0 (by decide)) (hack 1 (by decide))
  case everyOperation => exact fun i s t issued => exec_held
  case timeWriteFails =>
    intro y mo d h mi sec s hstill hn hs hok h0 h1 h2
    obtain ⟨t, ht, hstatus, htime⟩ := exec_setdt_partly_held hok hstill hn hs h0 h1 h2
    exact ⟨t, _, ht, dtEnc_toNat hok, hstatus, htime⟩

end Sys2Proof.Machine
end

section
/-! PROOFS. The family 30_encoding.md: what an operand layout reads is said once (`Reads`, `instrOf_reads`), and what the
decoder does follows from the row of the opcode; a mnemonic names its row, and the operand values give the frame's bytes; a
pure operation is one response, the same from every state (`exec_pure`). -/

namespace Sys2Proof

/-! ### The rows of the opcode map (R105, R106) -/

/-- The opcodes R106 leaves unassigned. -/
abbrev Unassigned (n : Nat) : Prop := n = 0x00 ∨ (0x0D ≤ n ∧ n ≤ 0x0F) ∨ 0x21 ≤ n

theorem rowOf_mem {n : Nat} {row : OpcodeRow} (h : rowOf n = some row) : row ∈ opcodeMap ∧ row.opcode = n :=
  ⟨List.mem_of_find?_eq_some h, by simpa using List.find?_some h⟩

theorem rowOf_eq_none {n : Nat} (h : Unassigned n) : rowOf n = none := by
  have hrows : ∀ row ∈ opcodeMap, ¬Unassigned row.opcode := by decide
  refine List.find?_eq_none.2 fun row hrow heq => hrows row hrow ?_
  rwa [eq_of_beq heq]

theorem exists_rowOf {n : Nat} (h : ¬Unassigned n) : ∃ row, rowOf n = some row := by
  have hmap : ∀ n < 0x21, ¬Unassigned n → (rowOf n).isSome = true := by decide
  exact Option.isSome_iff_exists.1 (hmap n (by omega) h)

/-- Every operation has a row. -/
theorem rowOf_opcode (i : Instr) : ∃ row, rowOf i.opcode = some row := by cases i <;> exact ⟨_, rfl⟩

/-- An operation's opcode is a byte. -/
theorem opcode_toNat (i : Instr) : (BitVec.ofNat 8 i.opcode).toNat = i.opcode := by cases i <;> rfl

/-! ### The operand layouts (R102) -/

/-- Operation `i` has this opcode and these operand bytes. -/
def Instr.HasFrame (i : Instr) (opcode : Nat) (operands : List Byte) : Prop :=
  i.opcode = opcode ∧ i.operands = operands

/-- `take` reads the operand bytes of an opcode: every list of `n` bytes as an operation of that opcode with those operand
bytes, and no list of another length. -/
structure Reads (opcode n : Nat) (take : List Byte → Option Instr) : Prop where
  accepts : ∀ l, l.length = n → ∃ i, take l = some i ∧ i.HasFrame opcode l
  rejects : ∀ l, l.length ≠ n → take l = none

section

variable {opcode : Nat}

theorem take0_reads {i : Instr} (hi : i.HasFrame opcode [] := by exact ⟨rfl, rfl⟩) :
    Reads opcode 0 (take0 i) where
  accepts | [], _ => ⟨_, rfl, hi⟩
  rejects l hl := by unfold take0; split; exacts [absurd rfl hl, rfl]

theorem take1_reads {f : Byte → Instr}
    (hf : ∀ a, (f a).HasFrame opcode [a] := by intros; exact ⟨rfl, rfl⟩) :
    Reads opcode 1 (take1 f) where
  accepts | [a], _ => ⟨_, rfl, hf a⟩
  rejects l hl := by unfold take1; split; exacts [absurd rfl hl, rfl]

theorem take2_reads {f : Byte → Byte → Instr}
    (hf : ∀ a b, (f a b).HasFrame opcode [a, b] := by intros; exact ⟨rfl, rfl⟩) :
    Reads opcode 2 (take2 f) where
  accepts | [a, b], _ => ⟨_, rfl, hf a b⟩
  rejects l hl := by unfold take2; split; exacts [absurd rfl hl, rfl]

theorem take3_reads {f : Byte → Byte → Byte → Instr}
    (hf : ∀ a b c, (f a b c).HasFrame opcode [a, b, c] := by intros; exact ⟨rfl, rfl⟩) :
    Reads opcode 3 (take3 f) where
  accepts | [a, b, c], _ => ⟨_, rfl, hf a b c⟩
  rejects l hl := by unfold take3; split; exacts [absurd rfl hl, rfl]

theorem take4_reads {f : Byte → Byte → Byte → Byte → Instr}
    (hf : ∀ a b c d, (f a b c d).HasFrame opcode [a, b, c, d] := by intros; exact ⟨rfl, rfl⟩) :
    Reads opcode 4 (take4 f) where
  accepts | [a, b, c, d], _ => ⟨_, rfl, hf a b c d⟩
  rejects l hl := by unfold take4; split; exacts [absurd rfl hl, rfl]

theorem take5_reads {f : Byte → Byte → Byte → Byte → Byte → Instr}
    (hf : ∀ a b c d e, (f a b c d e).HasFrame opcode [a, b, c, d, e] := by intros; exact ⟨rfl, rfl⟩) :
    Reads opcode 5 (take5 f) where
  accepts | [a, b, c, d, e], _ => ⟨_, rfl, hf a b c d e⟩
  rejects l hl := by unfold take5; split; exacts [absurd rfl hl, rfl]

theorem take7_reads {f : Byte → Byte → Byte → Byte → Byte → Byte → Byte → Instr}
    (hf : ∀ a b c d e g h, (f a b c d e g h).HasFrame opcode [a, b, c, d, e, g, h] := by intros; exact ⟨rfl, rfl⟩) :
    Reads opcode 7 (take7 f) where
  accepts | [a, b, c, d, e, g, h], _ => ⟨_, rfl, hf a b c d e g h⟩
  rejects l hl := by unfold take7; split; exacts [absurd rfl hl, rfl]

/-- F_YMD is four bytes, the first two of them the year's. -/
theorem takeYMD_reads {f : Year → Byte → Byte → Instr}
    (hf : ∀ y mo d, (f y mo d).HasFrame opcode [ylo y, yhi y, mo, d] := by intros; exact ⟨rfl, rfl⟩) :
    Reads opcode 4 (takeYMD f) :=
  take4_reads (f := fun lo hi => f (yearOf lo hi)) fun lo hi mo d => by simpa using hf (yearOf lo hi) mo d

/-- F_DT is seven bytes, the first two of them the year's. -/
theorem takeDT_reads {f : Year → Byte → Byte → Byte → Byte → Byte → Instr}
    (hf : ∀ y mo d h mi s, (f y mo d h mi s).HasFrame opcode [ylo y, yhi y, mo, d, h, mi, s] := by
      intros; exact ⟨rfl, rfl⟩) :
    Reads opcode 7 (takeDT f) :=
  take7_reads (f := fun lo hi => f (yearOf lo hi)) fun lo hi mo d h mi s => by
    simpa using hf (yearOf lo hi) mo d h mi s

end

/-- `instrOf` reads the operand bytes of each row of the opcode map, by the layout of the row. -/
theorem instrOf_reads : ∀ row ∈ opcodeMap, Reads row.opcode row.format.operandBytes (instrOf row.opcode) := by
  simp only [opcodeMap, pureRows, deviceRows, List.cons_append, List.nil_append, List.forall_mem_cons]
  exact ⟨take1_reads, take1_reads, take1_reads, take1_reads, takeYMD_reads, takeDT_reads, take7_reads, take2_reads,
    take5_reads, take4_reads, take4_reads, take3_reads,
    take0_reads, takeDT_reads, take0_reads, take0_reads, take5_reads, take0_reads, take4_reads, take0_reads, take0_reads,
    take1_reads, take1_reads, take1_reads, take1_reads, take0_reads, take1_reads, take0_reads, take1_reads, nofun⟩

theorem rowOf_reads {n : Nat} {row : OpcodeRow} (h : rowOf n = some row) :
    Reads n row.format.operandBytes (instrOf n) := by
  obtain ⟨hmem, rfl⟩ := rowOf_mem h
  exact instrOf_reads row hmem

/-- An operation is read back from its opcode and its operand bytes. -/
theorem instrOf_operands (i : Instr) : instrOf i.opcode i.operands = some i := by
  cases i with
  | dow | dtenc | setdt => simp [Instr.opcode, Instr.operands, instrOf, takeYMD, takeDT]
  | _ => rfl

/-! ### The decoder (R107) -/

theorem decode_unassigned {opc : Byte} (h : rowOf opc.toNat = none) (operands : List Byte) :
    decode (opc :: operands) = .error (.unassignedOpcode opc) := by
  simp [decode, frameLength, h]

theorem decode_ok {opc : Byte} {row : OpcodeRow} {operands : List Byte} {i : Instr} (h : rowOf opc.toNat = some row)
    (hi : instrOf opc.toNat operands = some i) : decode (opc :: operands) = .ok i := by
  simp [decode, frameLength, h, hi]

theorem decode_wrongLength {opc : Byte} {row : OpcodeRow} {operands : List Byte} (h : rowOf opc.toNat = some row)
    (hl : operands.length ≠ row.format.operandBytes) :
    decode (opc :: operands) = .error (.wrongLength opc (1 + operands.length)) := by
  simp [decode, frameLength, h, (rowOf_reads h).rejects operands hl]

/-- An accepted frame's opcode has a row, whose layout reads the operand bytes as those of the operation. -/
theorem eq_encode_of_decode {frame : List Byte} {i : Instr} (h : decode frame = .ok i) : frame = encode i := by
  match frame, h with
  | opc :: operands, h =>
    cases hrow : rowOf opc.toNat with
    | none => simp [decode_unassigned hrow] at h
    | some row =>
      by_cases hl : operands.length = row.format.operandBytes
      · obtain ⟨j, hj, hopcode, rfl⟩ := (rowOf_reads hrow).accepts operands hl
        obtain rfl : j = i := Except.ok.inj ((decode_ok hrow hj).symm.trans h)
        simp [encode, hopcode]
      · simp [decode_wrongLength hrow hl] at h

theorem decode_encode (i : Instr) : decode (encode i) = .ok i := by
  obtain ⟨row, hrow⟩ := rowOf_opcode i
  apply decode_ok (row := row) <;> rw [opcode_toNat]
  exacts [hrow, instrOf_operands i]

/-- Settles O2: the opcode of an operation has a row, and `instrOf` reads the operation back from its operand bytes. -/
theorem decodeInvertsEncode : Obligations.DecodeInvertsEncode := decode_encode

/-- Settles O3: the operands a row's layout reads are those of the operation it gives. -/
theorem acceptedFrameIsEncoding : Obligations.AcceptedFrameIsEncoding := fun _ _ => eq_encode_of_decode

/-- Settles O4: an opcode without a row is unassigned; with one, its layout accepts exactly the lists of its length. -/
theorem frameRejectedExactlyWhenUnassignedOrWrongLength :
    Obligations.FrameRejectedExactlyWhenUnassignedOrWrongLength := by
  unfold Obligations.FrameRejectedExactlyWhenUnassignedOrWrongLength
  refine fun opc operands => ⟨fun h => decode_unassigned (rowOf_eq_none h) operands, fun h => ?_⟩
  obtain ⟨row, hrow⟩ := exists_rowOf h
  obtain ⟨hmem, hopcode⟩ := rowOf_mem hrow
  refine ⟨row, hmem, hopcode, fun hl => ?_, decode_wrongLength hrow⟩
  obtain ⟨i, hi, -⟩ := (rowOf_reads hrow).accepts operands hl
  exact ⟨i, decode_ok hrow hi⟩

/-- Settles O1: each frame is the encoding of its operation. -/
theorem sampleFramesDecode : Obligations.SampleFramesDecode :=
  ⟨decode_encode (.bcdenc 45), decode_encode (.setdt 2024 1 2 13 45 30), decode_encode (.tmpdec 0x19 0x40),
    decode_encode (.seta1 30 15 6 1 0x1F), decode_encode (.seta2 0 7 5 0x0B), decode_encode (.forceconv 1),
    decode_encode (.setage 0xFB)⟩

end Sys2Proof

namespace Sys2Proof.Machine

/-! ### The assembler (R108) -/

/-- The value of a byte as an operand of a line. -/
theorem operandByte_toNat (b : Byte) : operandByte b.toNat = some b := by
  have hb : (b.toNat : Int) ≤ 255 := by have := b.isLt; omega
  simp [operandByte, hb]

theorem operandBytes_toNat (bs : List Byte) : operandBytes (bs.map fun b => (b.toNat : Int)) = some bs := by
  induction bs with
  | nil => rfl
  | cons b bs ih => simp only [List.map_cons, operandBytes, operandByte_toNat, ih]

section

variable {row : OpcodeRow}

theorem assembleOperands_bytes (h : row.opcode ≠ 0x20) (hy : hasYear row.format = false) {bs : List Byte}
    {vs : List Int} (hvs : vs = bs.map fun b => (b.toNat : Int)) : assembleOperands row vs = some bs := by
  simp [hvs, assembleOperands, h, hy, operandBytes_toNat]

theorem assembleOperands_year (h : row.opcode ≠ 0x20) (hy : hasYear row.format = true) (y : Year) (bs : List Byte) :
    assembleOperands row (y.toNat :: bs.map fun b => (b.toNat : Int)) = some (ylo y :: yhi y :: bs) := by
  have hyear : (y.toNat : Int) ≤ 65535 := by have := y.isLt; omega
  simp [assembleOperands, h, hy, hyear, operandBytes_toNat]

theorem assembleOperands_setage (h : row.opcode = 0x20) (a : Byte) : assembleOperands row [sext8 a] = some [a] := by
  have hage : -128 ≤ a.toInt ∧ a.toInt ≤ 127 := ⟨BitVec.le_toInt a, Int.le_of_lt_add_one BitVec.toInt_lt⟩
  simp [assembleOperands, h, hage]

end

/-- A mnemonic names one row. -/
theorem find?_mnemonic {row : OpcodeRow} (h : row ∈ opcodeMap) :
    opcodeMap.find? (fun r => r.mnemonic.toList == row.mnemonic.toList) = some row := by
  have hmap : ∀ row ∈ opcodeMap,
      opcodeMap.find? (fun r => r.mnemonic.toList == row.mnemonic.toList) = some row := by decide
  exact hmap row h

/-- An operation's row has its mnemonic, and the operand values a line of it names are as many as the row asks for and give
its operand bytes. -/
theorem rowOf_assembles (i : Instr) : ∃ row, rowOf i.opcode = some row ∧ row.mnemonic = Reading.mnemonic i ∧
    (asmOperands i).length = asmOperandCount row ∧ assembleOperands row (asmOperands i) = some i.operands := by
  cases i with
  | dow y mo d => exact ⟨_, rfl, rfl, rfl, assembleOperands_year (by decide) rfl y [mo, d]⟩
  | dtenc y mo d h mi s | setdt y mo d h mi s =>
    exact ⟨_, rfl, rfl, rfl, assembleOperands_year (by decide) rfl y [mo, d, h, mi, s]⟩
  | setage a => exact ⟨_, rfl, rfl, rfl, assembleOperands_setage rfl a⟩
  | _ => exact ⟨_, rfl, rfl, rfl, assembleOperands_bytes (by decide) rfl rfl⟩

/-- Settles O7: the mnemonic finds the operation's row, under which its operand values give its operand bytes. -/
theorem assemblerGivesTheEncoding : Obligations.AssemblerGivesTheEncoding := by
  unfold Obligations.AssemblerGivesTheEncoding
  intro i
  obtain ⟨row, hrow, hmnemonic, hcount, hoperands⟩ := rowOf_assembles i
  obtain ⟨hmem, hopcode⟩ := rowOf_mem hrow
  simp only [assemble, ← hmnemonic, find?_mnemonic hmem, hcount, hoperands, hopcode, encode, if_true]

/-! ### The results of a response (R101) -/

theorem Status.delivers_iff {st : Status} : st.delivers = true ↔ st = .ok ∨ st = .corruptData := by
  cases st <;> decide

/-- A run that ends with a response ends with one of its operation's. -/
theorem Runs.answers {i : Instr} {l : List Transaction} {s t : State} (h : Runs i l s t) {r : Response}
    (hs : s.seq ≠ .idle) (hn : s.resetIn = none) (ht : t.seq = .idle) (hr : t.response = some r) : r.Answers i := by
  induction h with
  | reset h0 => simp [hn] at h0
  | respond hc =>
    rw [respond_response _ hn] at hr
    cases hr
    exact hc.answers
  | mapBusy f _ ih => exact ih (mt Sequencer.map_eq_idle.1 hs) hn ht hr
  | ack e _ _ _ ih => exact ih hs (by simp [hn]) ht hr
  | nack e =>
    rw [Machine.raise, respond_response _ (by simp [hn])] at hr
    cases hr
    exact ⟨by decide, rfl⟩
  | silent e => exact (hs ht).elim

/-- Settles O51: the response of a run has the results its status delivers. -/
theorem responseCarriesExactlyItsResults : Obligations.ResponseCarriesExactlyItsResults := by
  unfold Obligations.ResponseCarriesExactlyItsResults
  intro i s t r hn ht hidle hr
  simp only [← Status.delivers_iff]
  exact (Runs.of_exec ht).answers (by simp) hn hidle hr

/-! ### The pure operations (R105) -/

/-- Operation `i` is nothing but one response, the same from every state, and one no transaction forces. -/
def AnswersAlone (i : Instr) : Prop :=
  ∃ r : Response, r.status ≠ .busError ∧ r.status ≠ .convTimeout ∧ ∀ s, exec i s = .next (respond r s.begin)

namespace AnswersAlone

variable {i : Instr} {results : List Byte}

theorem of_finish (h : ∀ s, exec i s = .next (finish results s.begin)) : AnswersAlone i :=
  ⟨{ status := .ok, results }, by simp, by simp, h⟩

theorem of_raise (h : ∀ s, exec i s = .next (raise .argRange s.begin)) : AnswersAlone i :=
  ⟨{ status := .argRange, results := [] }, by decide, by decide, h⟩

theorem of_finishChecked {ok : Bool} (h : ∀ s, exec i s = .next (finishChecked ok results s.begin)) :
    AnswersAlone i := by
  cases ok with
  | true => exact of_finish h
  | false => exact ⟨{ status := .corruptData, results }, by simp, by simp, h⟩

theorem of_guard {ok : Bool}
    (h : ∀ s, exec i s = .next (if ok then finish results s.begin else raise .argRange s.begin)) : AnswersAlone i := by
  cases ok with
  | true => exact of_finish h
  | false => exact of_raise h

/-- Such an operation completes alone: the end of an operation issues nothing and changes no register. -/
theorem completes (h : AnswersAlone i) {s : State} (hn : s.resetIn = none) :
    ∃ st results, CompletesAlone i s st results ∧ st ≠ .busError ∧ st ≠ .convTimeout := by
  obtain ⟨r, hbus, htimeout, hexec⟩ := h
  have hend : exec i s = .next { s with response := some r, seq := .idle }.tick := by
    rw [hexec, respond_none (s := s.begin) r hn]
    rfl
  have hkept : Kept s { s with response := some r, seq := .idle }.tick := ⟨rfl, rfl, rfl, rfl, by simp [hn]⟩
  exact ⟨r.status, r.results, ⟨_, hend, rfl, rfl, rfl, rfl, State.Quiet.tick_dev, rfl, rfl, hkept⟩, hbus, htimeout⟩

theorem response (h : AnswersAlone i) : ∃ r : Response, ∀ s t, s.resetIn = none → exec i s = .next t →
    t.response = some r := by
  obtain ⟨r, -, -, hexec⟩ := h
  refine ⟨r, fun s t hn ht => ?_⟩
  cases (hexec s).symm.trans ht
  exact respond_response r hn

end AnswersAlone

/-- The pure operations answer alone: each ends with its results, checked or not, or first checks its arguments. -/
theorem exec_pure {i : Instr} (h : isPure i = true) : AnswersAlone i := by
  cases i with
  | bcdenc | tmpdec => exact .of_finish fun _ => rfl
  | bcddec | hrdec | dtdec | a1dec | a2dec => exact .of_finishChecked fun _ => rfl
  | hrenc | dow | dtenc | a1enc | a2enc => exact .of_guard fun _ => rfl
  | _ => cases h

/-- Settles O52: a pure operation is the end of an operation and nothing else. -/
theorem pureOperationsTouchNoRegister : Obligations.PureOperationsTouchNoRegister :=
  fun _ _ h hn => (exec_pure h).completes hn

/-- Settles O53: a pure operation has one response for all states. -/
theorem pureResponseDependsOnOperandsOnly : Obligations.PureResponseDependsOnOperandsOnly := by
  unfold Obligations.PureResponseDependsOnOperandsOnly
  intro i s s' t t' h hn hn' ht ht'
  obtain ⟨r, hr⟩ := (exec_pure h).response
  rw [hr s t hn ht, hr s' t' hn' ht']

end Sys2Proof.Machine
end

section
/-! PROOFS. The family 41_bcd_hour.md: an operation that is nothing but its end completes alone (`CompletesAlone.of_respond`),
and the codec functions are the readings of R150, R152 and R156 on natural numbers. -/

namespace Sys2Proof.Machine

/-! ### Operations that end with no transaction -/

section

variable {i : Instr} {s : State} {results : List Byte} {values : List Nat}

/-- An operation that is one response completes alone with it: its end issues nothing and changes no register. -/
theorem CompletesAlone.of_respond {r : Response} (hn : s.resetIn = none)
    (h : exec i s = .next (respond r s.begin)) : CompletesAlone i s r.status r.results :=
  ⟨_, h.trans (congrArg _ (respond_none (s := s.begin) r hn)), rfl, rfl, rfl, rfl, State.Quiet.tick_dev, rfl, rfl,
    ⟨rfl, rfl, rfl, rfl, by simp [hn]⟩⟩

theorem CompletesWith.of_finish (hn : s.resetIn = none) (h : exec i s = .next (finish results s.begin))
    (hv : results.map BitVec.toNat = values) : CompletesWith i s .ok values :=
  ⟨results, hv, .of_respond hn h⟩

theorem CompletesWith.of_raise {st : Status} (hn : s.resetIn = none) (h : exec i s = .next (raise st s.begin)) :
    CompletesWith i s st [] :=
  ⟨[], rfl, .of_respond hn h⟩

/-- A decoder gives its results in both statuses, OK exactly when its check holds (R346). -/
theorem CompletesWith.of_finishChecked {ok : Bool} {p : Prop} [Decidable p] (hn : s.resetIn = none)
    (h : exec i s = .next (finishChecked ok results s.begin)) (hv : results.map BitVec.toNat = values)
    (hok : ok = decide p) : CompletesWith i s (if p then .ok else .corruptData) values := by
  subst hok
  by_cases hp : p
  · rw [decide_eq_true hp] at h
    rw [if_pos hp]
    exact .of_finish hn h hv
  · rw [decide_eq_false hp] at h
    rw [if_neg hp]
    exact ⟨results, hv, .of_respond hn h⟩

end

/-! ### The codec functions and their readings -/

theorem bcdDec_eq_bcd (b : Byte) : bcdDec b = Reading.bcd b.toNat := by
  rw [bcdDec_eq, Nat.mul_comm]; rfl

theorem bcdDigitsOk_byte (b : Byte) : bcdDigitsOk b 7 = decide (Reading.digitsOk b.toNat) := by
  simp [bcdDigitsOk, highNibble_eq, lowNibble_eq]

/-- Where the tens digit has less than 4 bits only the units digit is checked (R10). -/
theorem bcdDigitsOk_field (b : Byte) {hi : Nat} (h : hi < 7) : bcdDigitsOk b hi = decide (b.toNat % 16 ≤ 9) := by
  simp [bcdDigitsOk, lowNibble_eq, Nat.not_le.2 h]

theorem bcd_lt (b : Byte) : Reading.bcd b.toNat < 256 := by
  have := b.isLt
  unfold Reading.bcd; omega

theorem hour_lt (b : Byte) : Reading.hour b.toNat < 256 := by
  have := bcd_lt b
  unfold Reading.hour
  split
  · unfold Reading.bcd; omega
  · exact this

/-- `hour_dec` gives the hour of R156 and whether its checked digits are at most 9. -/
theorem hourDec_eq (b : Byte) : hourDec b = (Reading.hour b.toNat, decide (Reading.hourOk b.toNat)) := by
  have hmod : b.toNat % 32 % 16 = b.toNat % 16 := Nat.mod_mod_of_dvd _ (by decide)
  unfold hourDec Reading.hour Reading.hourOk
  simp only [bit_eq, bcdDec_eq_bcd, bcdDigitsOk_byte, bcdDigitsOk_field _ (show 4 < 7 by decide), mask1F_toNat, hmod,
    decide_eq_true_eq]
  by_cases h12 : b.toNat / 64 % 2 = 1
  · rcases Nat.mod_two_eq_zero_or_one (b.toNat / 32) with hpm | hpm <;> simp [h12, hpm]
  · simp [h12]

/-! ### The four operations (R151, R153, R155, R157) -/

/-- Settles O8: BCDENC finishes with the byte of R150. -/
theorem bcdencPacksDigits : Obligations.BcdencPacksDigits :=
  fun a _ hn => ⟨decode_encode (.bcdenc a), .of_finish hn rfl (by simp [bcdEnc_toNat])⟩

/-- Settles O9: BCDDEC is checked by both its digits. -/
theorem bcddecValueAndStatus : Obligations.BcddecValueAndStatus := by
  unfold Obligations.BcddecValueAndStatus
  intro a s hn
  have hvalue : (toByte (bcdDec a)).toNat = Reading.bcd a.toNat := by
    rw [toByte_toNat, bcdDec_eq_bcd, Nat.mod_eq_of_lt (bcd_lt a)]
  have hcheck : (if a.toNat / 16 > 9 ∨ a.toNat % 16 > 9 then Status.corruptData else .ok) =
      if Reading.digitsOk a.toNat then .ok else .corruptData := by
    rw [← ite_not]
    simp
  refine ⟨decode_encode (.bcddec a), ?_⟩
  rw [hcheck]
  exact .of_finishChecked hn rfl (congrArg ([·]) hvalue) (bcdDigitsOk_byte a)

/-- Settles O10: an hour of at most 23 has its tens count whole in the BCD byte. -/
theorem hrencChecksThenEncodes : Obligations.HrencChecksThenEncodes := by
  unfold Obligations.HrencChecksThenEncodes
  refine fun a s hn => ⟨decode_encode (.hrenc a), fun h => ?_, fun h => ?_⟩
  · have hbyte : (hourEnc a.toNat).toNat = 16 * (a.toNat / 10) + a.toNat % 10 := by
      rw [hourEnc, bcdEnc_toNat, Nat.mod_eq_of_lt (show a.toNat / 10 < 16 by omega)]
    exact .of_finish hn (congrArg _ (if_pos (decide_eq_true h))) (congrArg ([·]) hbyte)
  · have hcheck : ¬hourArgOk a = true := by simpa [hourArgOk] using h
    exact .of_raise hn (congrArg _ (if_neg hcheck))

/-- HRDEC gives the hour of R156, OK exactly when its checked digits are at most 9. -/
theorem hrdec_completesWith (a : Byte) {s : State} (hn : s.resetIn = none) :
    CompletesWith (.hrdec a) s (if Reading.hourOk a.toNat then .ok else .corruptData) [Reading.hour a.toNat] := by
  have hvalue : (toByte (hourDec a).1).toNat = Reading.hour a.toNat := by
    rw [toByte_toNat, hourDec_eq, Nat.mod_eq_of_lt (hour_lt a)]
  exact .of_finishChecked hn rfl (congrArg ([·]) hvalue) (congrArg Prod.snd (hourDec_eq a))

/-- Settles O11: the two modes of HRDEC are the two branches of the reading. -/
theorem hrdecReadsTheHourLiterally : Obligations.HrdecReadsTheHourLiterally := by
  unfold Obligations.HrdecReadsTheHourLiterally
  refine fun a s hn => ⟨decode_encode (.hrdec a), fun h => ?_, fun h => ?_⟩
  · have htens : a.toNat % 32 / 16 = a.toNat / 16 % 2 := by omega
    have hunits : a.toNat % 32 % 16 = a.toNat % 16 := by omega
    simpa [Reading.hour, Reading.hourOk, Reading.bcd, h, htens, hunits] using hrdec_completesWith a hn
  · simpa [Reading.hour, Reading.hourOk, Reading.bcd, h] using hrdec_completesWith a hn

/-! ### The laws of R159 -/

/-- The digits of a BCD byte are the tens count, kept in 4 bits, and the units digit. -/
theorem bcdEnc_digits (v : Nat) :
    (bcdEnc v).toNat / 16 = v / 10 % 16 ∧ (bcdEnc v).toNat % 16 = v % 10 := by
  rw [bcdEnc_toNat]; omega

theorem bcdDec_bcdEnc (v : Nat) : bcdDec (bcdEnc v) = v / 10 % 16 * 10 + v % 10 := by
  obtain ⟨htens, hunits⟩ := bcdEnc_digits v
  rw [bcdDec_eq, htens, hunits]

/-- A BCD byte has valid digits exactly when the tens count it keeps is a digit. -/
theorem bcdDigitsOk_bcdEnc (v : Nat) : bcdDigitsOk (bcdEnc v) 7 = true ↔ v / 10 % 16 ≤ 9 := by
  obtain ⟨htens, hunits⟩ := bcdEnc_digits v
  simp only [bcdDigitsOk_byte, Reading.digitsOk, htens, hunits, decide_eq_true_eq]
  omega

/-- The first law of R159 holds of `v` exactly when `v` has two digits. -/
theorem bcd_roundTrip_iff (v : Nat) :
    (bcdDec (bcdEnc v) = v ∧ bcdDigitsOk (bcdEnc v) 7 = true) ↔ v ≤ 99 := by
  rw [bcdDec_bcdEnc, bcdDigitsOk_bcdEnc]; omega

/-- An hour's byte has bit 6 clear, so it decodes in 24-hour mode. -/
theorem hourDec_hourEnc {h : Nat} (hh : h ≤ 23) : hourDec (hourEnc h) = (h, true) := by
  obtain ⟨hvalue, hdigits⟩ := (bcd_roundTrip_iff h).2 (by omega)
  have hsmall : (bcdEnc h).toNat < 64 := by rw [bcdEnc_toNat]; omega
  have hmode : bit (bcdEnc h) 6 = false := by simp [bit_eq, Nat.div_eq_of_lt hsmall]
  simp [hourEnc, hourDec, hmode, hvalue, hdigits]

/-- Settles O12: the first law is that of the two-digit values, and hours are two-digit values below bit 6. -/
theorem bcdAndHourRoundTrip : Obligations.BcdAndHourRoundTrip :=
  ⟨fun v => (bcd_roundTrip_iff v).2, fun _ => hourDec_hourEnc,
    fun v hv _ hlaw => absurd ((bcd_roundTrip_iff v).1 hlaw) (by omega)⟩

end Sys2Proof.Machine
end

section
/-! PROOFS. The family 42_datetime.md: an operation of one read completes by the reply to it (`ReadCases.of_memRead`), and
`dt_dec` is the readings of R185 on natural numbers, which undo `dt_enc` because every value it packs has two digits. -/

namespace Sys2Proof.Machine

/-! ### Operations of one read -/

section

variable {i : Instr} {s : State} {addr n : Nat} {results : List Byte} {k : (Nat → Byte) → State → State}

/-- SIM answers a read inside the register map with the contents of the registers (R73). -/
theorem State.readsContents (s : State) (hmap : addr + n ≤ 19) : ReadsContents s addr n := by
  intro hq hscript hwf j hj
  obtain ⟨b, hb⟩ := Option.isSome_iff_exists.1 (s.dev.wf_read? (addr + j) hwf (by omega))
  simp [State.dataAt, State.answerAt, hscript, hq.sim, Transport.answer, hb]

/-- A run that ends with a response completes with it, having issued what is then in the history. -/
theorem Completes.of_respond {u : State} {r : Response} {issued : List Event} (h : exec i s = .next (respond r u))
    (he : u.events = s.events ++ issued) (hu : Kept s u) : Completes i s r.status r.results issued :=
  ⟨_, h.trans (congrArg _ (respond_none r hu.resetIn)), rfl, rfl, he,
    ⟨hu.command, hu.host, hu.transport, hu.convPollMax, by simp [hu.resetIn]⟩⟩

/-- An operation that answers the bytes of its one read with a response completes with it, or with BUS_ERROR (R343). -/
theorem ReadCases.of_memRead {r : Response} (hn : s.resetIn = none) (hmap : addr + n ≤ 19)
    (h : exec i s = .next (memRead addr n s.begin k)) (hk : ∀ u, k (s.dataAt addr) u = respond r u) :
    ReadCases i s addr n r.status r.results := by
  refine ⟨fun ha => ?_, fun ha => ?_, s.readsContents hmap⟩
  · have hack := h.trans (congrArg _ ((memRead_ack addr n (s := s.begin) k hn ha).trans (hk _)))
    exact .of_respond hack rfl ⟨rfl, rfl, rfl, rfl, by simp [hn]⟩
  · have hnack := h.trans (congrArg _ (memRead_nack addr n (s := s.begin) k hn ha))
    exact .of_respond hnack rfl ⟨rfl, rfl, rfl, rfl, by simp [hn]⟩

/-- The end of a decoder is one response with its results in both statuses (R346). -/
theorem finishChecked_eq_respond (ok : Bool) (results : List Byte) (s : State) :
    finishChecked ok results s = respond { status := if ok then .ok else .corruptData, results } s := by
  cases ok <;> rfl

/-- A decoder of the bytes of one read is OK exactly when its check of them holds (R346). -/
theorem ReadCasesWith.of_finishChecked {values : List Nat} {ok : Bool} {p : Prop} [Decidable p]
    (hn : s.resetIn = none) (hmap : addr + n ≤ 19) (h : exec i s = .next (memRead addr n s.begin k))
    (hk : ∀ u, k (s.dataAt addr) u = finishChecked ok results u) (hv : results.map BitVec.toNat = values)
    (hok : ok = decide p) : ReadCasesWith i s addr n (if p then .ok else .corruptData) values := by
  have hend := fun u => (hk u).trans (finishChecked_eq_respond ok results u)
  simp only [hok, decide_eq_true_eq] at hend
  exact ⟨results, hv, .of_memRead hn hmap h hend⟩

end

/-! ### The date-time decoder (R185, R186) -/

/-- The byte of a result of at most 255. -/
theorem toByte_toNat_of_lt {v : Nat} (h : v < 256) : (toByte v).toNat = v := by
  rw [toByte_toNat, Nat.mod_eq_of_lt h]

theorem bcdDigitsOk_mask7F (b : Byte) : bcdDigitsOk (b &&& 0x7F#8) 6 = decide (b.toNat % 16 ≤ 9) := by
  rw [bcdDigitsOk_field _ (by decide), mask7F_toNat, Nat.mod_mod_of_dvd _ (by decide)]

section

variable (r0 r1 r2 r3 r4 r5 r6 : Byte)

/-- The century bit is the top bit of the month byte. -/
theorem dtDec_year : (dtDec r0 r1 r2 r3 r4 r5 r6).1.year = Reading.year r5.toNat r6.toNat := by
  simp only [dtDec, bit_eq, bcdDec_eq_bcd, Reading.year, decide_eq_true_eq]
  split <;> omega

/-- The results of `dt_dec` are the fields of R185. -/
theorem dtResults_dtDec : (dtResults (dtDec r0 r1 r2 r3 r4 r5 r6).1).map BitVec.toNat =
    Reading.dtFields r0.toNat r1.toNat r2.toNat r4.toNat r5.toNat r6.toNat := by
  have hyear : Reading.year r5.toNat r6.toNat / 256 < 256 := by
    have := bcd_lt r6
    unfold Reading.year; omega
  simp only [dtResults, dtDec_year, Reading.dtFields, List.map_cons, List.map_nil]
  simp only [dtDec, bcdDec_eq_bcd, hourDec_eq, toByte_toNat_of_lt, Nat.mod_lt, hyear, bcd_lt, hour_lt,
    Nat.zero_lt_succ]
  simp only [mask7F_toNat]

/-- The check of `dt_dec` is that of R185. -/
theorem dtDec_ok : (dtDec r0 r1 r2 r3 r4 r5 r6).2 =
    decide (Reading.dtFieldsOk r0.toNat r1.toNat r2.toNat r4.toNat r5.toNat r6.toNat) := by
  simp only [dtDec, hourDec_eq, bcdDigitsOk_mask7F, bcdDigitsOk_byte, Reading.dtFieldsOk, Bool.decide_and,
    Bool.and_assoc]

end

/-- Settles O16: DTDEC ends with the fields and the check of `dt_dec`. -/
theorem dtdecGivesTheFields : Obligations.DtdecGivesTheFields :=
  fun r0 r1 r2 r3 r4 r5 r6 _ hn => ⟨decode_encode (.dtdec r0 r1 r2 r3 r4 r5 r6),
    .of_finishChecked hn rfl (dtResults_dtDec r0 r1 r2 r3 r4 r5 r6) (dtDec_ok r0 r1 r2 r3 r4 r5 r6)⟩

/-- Settles O17: GETDT ends an acknowledged read with the fields and the check of `dt_dec` on its bytes. -/
theorem getdtDecodesTheTimeBlock : Obligations.GetdtDecodesTheTimeBlock :=
  fun _ hn => ⟨decode_encode .getdt,
    .of_finishChecked hn (by decide) rfl (fun _ => rfl) (dtResults_dtDec ..) (dtDec_ok ..)⟩

/-! ### The law of R189 -/

/-- A value of at most 79 leaves bit 7 of its BCD byte clear. -/
theorem bcdEnc_mask7F {v : Nat} (hv : v ≤ 79) : bcdEnc v &&& 0x7F#8 = bcdEnc v := by
  refine BitVec.eq_of_toNat_eq ?_
  rw [mask7F_toNat, bcdEnc_toBcd, Nat.mod_eq_of_lt (toBcd_lt.1 hv)]

/-- The century bit is never set by `dt_enc` (R183). -/
theorem bit7_bcdEnc {v : Nat} (hv : v ≤ 79) : bit (bcdEnc v) 7 = false := by
  simp [bit_eq, bcdEnc_toBcd, Nat.div_eq_of_lt (toBcd_lt.1 hv)]

theorem bcdDigitsOk_bcdEnc_field (v : Nat) {hi : Nat} (h : hi < 7) : bcdDigitsOk (bcdEnc v) hi = true := by
  rw [bcdDigitsOk_field _ h, (bcdEnc_digits v).2]
  exact decide_eq_true (by omega)

/-- A weekday is one BCD digit. -/
theorem toBcd_weekday (y m d : Nat) : Reading.toBcd (Reading.weekday y m d) = Reading.weekday y m d := by
  have : Reading.weekday y m d < 7 := Nat.mod_lt _ (by decide)
  unfold Reading.toBcd; omega

/-- `dt_dec` gives a date-time in range back from the bytes of `dt_enc`, whatever byte 3 holds, but for the century of its
year. -/
theorem dtDec_bcdEnc {x : DateTime} (hok : Reading.dtOk x.year x.month x.day x.hour x.minute x.second) (r3 : Byte) :
    dtDec (bcdEnc x.second) (bcdEnc x.minute) (hourEnc x.hour) r3 (bcdEnc x.day) (bcdEnc x.month)
      (bcdEnc ((x.year - 2000) % 100)) = ({ x with year := 2000 + (x.year - 2000) % 100 }, true) := by
  obtain ⟨⟨-, -, -, hmonth, -, hday⟩, hhour, hminute, hsecond⟩ := hok
  have hdigits {v : Nat} (hv : v ≤ 99) := (bcd_roundTrip_iff v).2 hv
  obtain ⟨hs, -⟩ := hdigits (v := x.second) (by omega)
  obtain ⟨hmi, hmiOk⟩ := hdigits (v := x.minute) (by omega)
  obtain ⟨hd, hdOk⟩ := hdigits (v := x.day) (by omega)
  obtain ⟨hmo, -⟩ := hdigits (v := x.month) (by omega)
  obtain ⟨hy, hyOk⟩ := hdigits (v := (x.year - 2000) % 100) (by omega)
  simp [dtDec, hourDec_hourEnc hhour, bcdEnc_mask7F (v := x.second) (by omega),
    bcdEnc_mask7F (v := x.month) (by omega), bit7_bcdEnc (v := x.month) (by omega), bcdDigitsOk_bcdEnc_field,
    hs, hmi, hmiOk, hd, hdOk, hmo, hy, hyOk]

/-- Settles O19: `dt_enc` keeps the year modulo 100, and `dt_dec` reads it as one of 2000..2099. -/
theorem dateTimeRoundTrip : Obligations.DateTimeRoundTrip := by
  unfold Obligations.DateTimeRoundTrip
  intro x hok
  have ⟨⟨hmin, hmax, hm1, hm12, _⟩, _⟩ := hok
  refine ⟨_, _, _, _, _, _, _, rfl, ?_, fun h => ?_, fun h => ?_⟩
  · rw [bcdEnc_toBcd, dayOfWeek_eq_weekday hm1 hm12, toBcd_weekday]
  · have hyear : 2000 + (x.year - 2000) % 100 = x.year := by omega
    rw [dtDec_bcdEnc hok, hyear]
  · have hyear : 2000 + (x.year - 2000) % 100 = x.year - 100 := by omega
    rw [dtDec_bcdEnc hok, hyear]

end Sys2Proof.Machine
end

section
/-! PROOFS. The family 43_temperature.md: both operations finish with `temp_dec`, and the quarters it gives are the low two
bits of the number its degree byte is the high part of. -/

namespace Sys2Proof.Machine

/-! ### Operations that finish with the bytes of one read -/

/-- An operation that finishes with what it makes of the bytes of its one read is OK, or ends with BUS_ERROR (R343). -/
theorem ReadCasesWith.of_finish {i : Instr} {s : State} {addr n : Nat} {results : List Byte} {values : List Nat}
    {k : (Nat → Byte) → State → State} (hn : s.resetIn = none) (hmap : addr + n ≤ 19)
    (h : exec i s = .next (memRead addr n s.begin k)) (hk : ∀ u, k (s.dataAt addr) u = finish results u)
    (hv : results.map BitVec.toNat = values) : ReadCasesWith i s addr n .ok values :=
  ⟨results, hv, .of_memRead hn hmap h hk⟩

/-! ### The temperature decoder (R220) -/

/-- The results of `temp_dec` are the degree byte and the top two bits of the fraction byte. -/
theorem tempDec_toNat (r0 r1 : Byte) : (tempDec r0 r1).map BitVec.toNat = [r0.toNat, r1.toNat / 64] := by
  simp [tempDec, topTwo_toNat]

/-- The quarters of `temp_dec` are the field `r1[7:6]`. -/
theorem topTwo_toNat_eq_extractLsb' (b : Byte) : (topTwo b).toNat = (b.extractLsb' 6 2).toNat := by
  have hbyte := b.isLt
  rw [topTwo_toNat, BitVec.extractLsb'_toNat, Nat.shiftRight_eq_div_pow]
  omega

/-- Settles O22: a two's-complement number whose low part has two bits is four times its high part, signed, plus its low
part. -/
theorem temperatureIsATenBitNumber : Obligations.TemperatureIsATenBitNumber := by
  unfold Obligations.TemperatureIsATenBitNumber
  intro r0 r1
  have hconcat : (r0 ++ r1.extractLsb' 6 2 : BitVec 10).toInt = 4 * r0.toInt + (r1.extractLsb' 6 2).toNat :=
    BitVec.toInt_append
  refine ⟨topTwo r1, rfl, ?_⟩
  rw [tempInQuarters, topTwo_toNat_eq_extractLsb', hconcat]

/-! ### The two operations (R221, R222) -/

/-- Settles O20: TMPDEC finishes with the results of `temp_dec`. -/
theorem tmpdecGivesDegreesAndQuarters : Obligations.TmpdecGivesDegreesAndQuarters :=
  fun r0 r1 _ hn => ⟨decode_encode (.tmpdec r0 r1), .of_finish hn rfl (tempDec_toNat r0 r1)⟩

/-- Settles O21: GETTMP finishes an acknowledged read with the results of `temp_dec` on its bytes. -/
theorem gettmpReadsTheTemperature : Obligations.GettmpReadsTheTemperature :=
  fun _ hn => ⟨decode_encode .gettmp, .of_finish hn (by decide) rfl (fun _ => rfl) (tempDec_toNat ..)⟩

end Sys2Proof.Machine
end

section
/-! PROOFS. The family 44_alarm.md: an operation that checks its arguments runs in range and raises ARG_RANGE outside
(`exec_guard`), the control word of a decoder is its bits added up (`a1Word_toNat`), and a control bit stands where the
BCD value of its byte leaves room for it, so that the decoder finds both again (`alarmTime_parts`). -/

namespace Sys2Proof.Machine

/-! ### Operations that check their arguments, and operations of one write -/

section

variable {i : Instr} {s : State}

/-- An operation that checks its arguments goes on in range, and outside completes alone with ARG_RANGE (R340). -/
theorem exec_guard {t : State} {ok : Bool} {p goal : Prop} [Decidable p] (hn : s.resetIn = none)
    (h : exec i s = .next (if ok then t else raise .argRange s.begin)) (hok : ok = decide p)
    (inRange : p → exec i s = .next t → goal) : (p → goal) ∧ (¬p → CompletesWith i s .argRange []) := by
  subst hok
  refine ⟨fun hp => inRange hp ?_, fun hp => .of_raise hn ?_⟩
  · rwa [if_pos (decide_eq_true hp)] at h
  · rwa [if_neg (mt of_decide_eq_true hp)] at h

/-- An operation of one write finishes when it is acknowledged, and else ends with BUS_ERROR (R343). -/
theorem WriteCases.of_memWrite {addr : Nat} {v : List Byte} (hn : s.resetIn = none)
    (h : exec i s = .next (memWrite addr v s.begin fun s => finish [] s)) : WriteCases i s addr v := by
  refine ⟨fun ha => ?_, fun ha => ?_⟩
  · have hack := h.trans (congrArg _ (memWrite_ack addr v (s := s.begin) _ hn ha))
    exact .of_respond hack rfl ⟨rfl, rfl, rfl, rfl, by simp [hn]⟩
  · have hnack := h.trans (congrArg _ (memWrite_nack addr v (s := s.begin) _ hn ha))
    exact .of_respond hnack rfl ⟨rfl, rfl, rfl, rfl, by simp [hn]⟩

end

/-! ### The encoders and the setters (R242, R247, R251, R253) -/

/-- The check of R240. -/
theorem a1ArgsOk_a1Of (s mi h dy f : Byte) :
    a1ArgsOk (a1Of s mi h dy f) = decide (Reading.alarmOk s.toNat mi.toNat h.toNat dy.toNat) := rfl

/-- The check of R245: alarm two has no second. -/
theorem a2ArgsOk_a2Of (mi h dy f : Byte) :
    a2ArgsOk (a2Of mi h dy f) = decide (Reading.alarmOk 0 mi.toNat h.toNat dy.toNat) :=
  decide_eq_decide.2 (by simp [a2Of])

/-- Settles O23: in range A1ENC finishes with the bytes of `a1_enc`. -/
theorem a1encInterleavesControlBits : Obligations.A1encInterleavesControlBits :=
  fun sec mi h dy f _ hn => ⟨decode_encode (.a1enc sec mi h dy f),
    exec_guard hn rfl (a1ArgsOk_a1Of ..) fun hok hend => .of_finish hn hend (a1Enc_toNat hok)⟩

/-- Settles O25: in range A2ENC finishes with the bytes of `a2_enc`. -/
theorem a2encInterleavesControlBits : Obligations.A2encInterleavesControlBits :=
  fun mi h dy f _ hn => ⟨decode_encode (.a2enc mi h dy f),
    exec_guard hn rfl (a2ArgsOk_a2Of ..) fun hok hend => .of_finish hn hend (a2Enc_toNat hok)⟩

/-- Settles O29: in range SETA1 is one write of the bytes of `a1_enc`. -/
theorem seta1WritesAlarmOne : Obligations.Seta1WritesAlarmOne :=
  fun sec mi h dy f _ hn => ⟨decode_encode (.seta1 sec mi h dy f),
    exec_guard hn rfl (a1ArgsOk_a1Of ..) fun hok hend => ⟨_, a1Enc_toNat hok, .of_memWrite hn hend⟩⟩

/-- Settles O30: in range SETA2 is one write of the bytes of `a2_enc`. -/
theorem seta2WritesAlarmTwo : Obligations.Seta2WritesAlarmTwo :=
  fun mi h dy f _ hn => ⟨decode_encode (.seta2 mi h dy f),
    exec_guard hn rfl (a2ArgsOk_a2Of ..) fun hok hend => ⟨_, a2Enc_toNat hok, .of_memWrite hn hend⟩⟩

/-! ### The control word (R114, R115) -/

/-- A bit as a number. -/
theorem bit_toNat (b : Byte) (i : Nat) : (bit b i).toNat = b.toNat / 2 ^ i % 2 := by
  rw [bit_eq]
  rcases Nat.mod_two_eq_zero_or_one (b.toNat / 2 ^ i) with h | h <;> simp [h]

/-- Bit 7 is the top bit: nothing is above it. -/
theorem bit7_toNat (b : Byte) : (bit b 7).toNat = b.toNat / 128 := by
  have hb := b.isLt
  rw [bit_toNat]; omega

/-- A two-bit field at bit `n` of a byte adds up with what is below it. -/
theorem or_field_toNat {x k : Byte} {n : Nat} (hx : x.toNat < 2 ^ n) (hk : k.toNat < 4) (hn : n ≤ 6) :
    (x ||| (k <<< n)).toNat = x.toNat + 2 ^ n * k.toNat := by
  have hpow : 2 ^ n ≤ 2 ^ 6 := Nat.pow_le_pow_right (by decide) hn
  have hfits : k.toNat * 2 ^ n < 2 ^ 8 := (Nat.mul_le_mul (Nat.le_of_lt_succ hk) hpow).trans_lt (by decide)
  refine or_high_toNat hx ?_
  rw [BitVec.toNat_shiftLeft, Nat.shiftLeft_eq, Nat.mod_eq_of_lt hfits, Nat.mul_comm]

section

variable (c0 c1 c2 : Bool)

theorem twoBits_toNat : (bitAt c0 0 ||| bitAt c1 1).toNat = c0.toNat + 2 * c1.toNat := by
  cases c0 <;> cases c1 <;> rfl

theorem threeBits_toNat : (bitAt c0 0 ||| bitAt c1 1 ||| bitAt c2 2).toNat =
    c0.toNat + 2 * c1.toNat + 4 * c2.toNat := by
  cases c0 <;> cases c1 <;> cases c2 <;> rfl

/-- The control word of alarm one: three bits, and a field of two above them. -/
theorem a1Word_toNat {k : Byte} (hk : k.toNat < 4) :
    (bitAt c0 0 ||| bitAt c1 1 ||| bitAt c2 2 ||| (k <<< 3)).toNat =
      c0.toNat + 2 * c1.toNat + 4 * c2.toNat + 8 * k.toNat := by
  have h0 := c0.toNat_le
  have h1 := c1.toNat_le
  have h2 := c2.toNat_le
  rw [or_field_toNat (by rw [threeBits_toNat]; omega) hk (by decide), threeBits_toNat]
  rfl

/-- The control word of alarm two: two bits, and a field of two above them. -/
theorem a2Word_toNat {k : Byte} (hk : k.toNat < 4) :
    (bitAt c0 0 ||| bitAt c1 1 ||| (k <<< 2)).toNat = c0.toNat + 2 * c1.toNat + 4 * k.toNat := by
  have h0 := c0.toNat_le
  have h1 := c1.toNat_le
  rw [or_field_toNat (by rw [twoBits_toNat]; omega) hk (by decide), twoBits_toNat]
  rfl

end

theorem topTwo_lt (b : Byte) : (topTwo b).toNat < 4 := by
  have hb := b.isLt
  rw [topTwo_toNat]; omega

/-! ### The decoders (R243, R248) -/

theorem bcdDigitsOk_mask3F (b : Byte) : bcdDigitsOk (b &&& 0x3F#8) 5 = decide (b.toNat % 16 ≤ 9) := by
  rw [bcdDigitsOk_field _ (by decide), mask3F_toNat, Nat.mod_mod_of_dvd _ (by decide)]

section

variable (r0 r1 r2 r3 : Byte)

/-- The results of `a1_dec` are the fields of R243. -/
theorem a1Results_a1Dec : (a1Results (a1Dec r0 r1 r2 r3).1).map BitVec.toNat =
    Reading.a1Fields r0.toNat r1.toNat r2.toNat r3.toNat := by
  simp only [a1Results, a1Dec, Reading.a1Fields, List.map_cons, List.map_nil, bcdDec_eq_bcd, hourDec_eq,
    toByte_toNat_of_lt, bcd_lt, hour_lt, a1Word_toNat _ _ _ (topTwo_lt r3)]
  simp only [mask7F_toNat, mask3F_toNat, bit7_toNat, topTwo_toNat]

/-- The check of `a1_dec` is that of R243. -/
theorem a1Dec_ok : (a1Dec r0 r1 r2 r3).2 =
    decide (Reading.a1FieldsOk r0.toNat r1.toNat r2.toNat r3.toNat) := by
  simp only [a1Dec, hourDec_eq, bcdDigitsOk_mask7F, bcdDigitsOk_mask3F, mask7F_toNat, Reading.a1FieldsOk,
    Bool.decide_and, Bool.and_assoc]

/-- The results of `a2_dec` are the fields of R248. -/
theorem a2Results_a2Dec : (a2Results (a2Dec r0 r1 r2).1).map BitVec.toNat =
    Reading.a2Fields r0.toNat r1.toNat r2.toNat := by
  simp only [a2Results, a2Dec, Reading.a2Fields, List.map_cons, List.map_nil, bcdDec_eq_bcd, hourDec_eq,
    toByte_toNat_of_lt, bcd_lt, hour_lt, a2Word_toNat _ _ (topTwo_lt r2)]
  simp only [mask7F_toNat, mask3F_toNat, bit7_toNat, topTwo_toNat]

/-- The check of `a2_dec` is that of R248. -/
theorem a2Dec_ok : (a2Dec r0 r1 r2).2 = decide (Reading.a2FieldsOk r0.toNat r1.toNat r2.toNat) := by
  simp only [a2Dec, hourDec_eq, bcdDigitsOk_mask7F, bcdDigitsOk_mask3F, mask7F_toNat, Reading.a2FieldsOk,
    Bool.decide_and, Bool.and_assoc]

end

/-- Settles O24: A1DEC ends with the fields and the check of `a1_dec`. -/
theorem a1decExtractsControlBits : Obligations.A1decExtractsControlBits :=
  fun r0 r1 r2 r3 _ hn => ⟨decode_encode (.a1dec r0 r1 r2 r3),
    .of_finishChecked hn rfl (a1Results_a1Dec ..) (a1Dec_ok ..)⟩

/-- Settles O26: A2DEC ends with the fields and the check of `a2_dec`. -/
theorem a2decExtractsControlBits : Obligations.A2decExtractsControlBits :=
  fun r0 r1 r2 _ hn => ⟨decode_encode (.a2dec r0 r1 r2),
    .of_finishChecked hn rfl (a2Results_a2Dec ..) (a2Dec_ok ..)⟩

/-- Settles O27: GETA1 ends an acknowledged read with the fields and the check of `a1_dec` on its bytes. -/
theorem geta1DecodesAlarmOne : Obligations.Geta1DecodesAlarmOne :=
  fun _ hn => ⟨decode_encode .geta1,
    .of_finishChecked hn (by decide) rfl (fun _ => rfl) (a1Results_a1Dec ..) (a1Dec_ok ..)⟩

/-- Settles O28: GETA2 ends an acknowledged read with the fields and the check of `a2_dec` on its bytes. -/
theorem geta2DecodesAlarmTwo : Obligations.Geta2DecodesAlarmTwo :=
  fun _ hn => ⟨decode_encode .geta2,
    .of_finishChecked hn (by decide) rfl (fun _ => rfl) (a2Results_a2Dec ..) (a2Dec_ok ..)⟩

/-! ### The laws of R254 -/

/-- The control bit of a time byte leaves its BCD value as it is, and the value leaves bit 7 to it. -/
theorem alarmTime_parts {v : Nat} (hv : v ≤ 79) (c : Bool) :
    (bcdEnc v ||| bitAt c 7) &&& 0x7F#8 = bcdEnc v ∧ bit (bcdEnc v ||| bitAt c 7) 7 = c := by
  have hlow := toBcd_lt.1 hv
  have hbyte : (bcdEnc v ||| bitAt c 7).toNat = Reading.toBcd v + 128 * c.toNat := by
    cases c with
    | false => exact alarmTime_toNat (n := 0) hv
    | true => exact alarmTime_toNat (n := 1) hv
  refine ⟨BitVec.eq_of_toNat_eq ?_, ?_⟩
  · rw [mask7F_toNat, hbyte, bcdEnc_toBcd]; omega
  · have htop : (Reading.toBcd v + 128 * c.toNat) / 2 ^ 7 % 2 = c.toNat := by
      have := c.toNat_le
      omega
    rw [bit_eq, hbyte, htop]
    cases c <;> rfl

/-- A time byte decodes to its value, with a valid digit, and its control bit. -/
theorem alarmTime_dec {v : Nat} (hv : v ≤ 79) (c : Bool) :
    bcdDec ((bcdEnc v ||| bitAt c 7) &&& 0x7F#8) = v ∧ bcdDigitsOk ((bcdEnc v ||| bitAt c 7) &&& 0x7F#8) 6 = true ∧
      bit (bcdEnc v ||| bitAt c 7) 7 = c := by
  obtain ⟨hvalue, hbit⟩ := alarmTime_parts hv c
  rw [hvalue]
  exact ⟨((bcd_roundTrip_iff v).2 (by omega)).1, bcdDigitsOk_bcdEnc_field v (by decide), hbit⟩

/-- An hour byte decodes to its hour, with valid digits, and its control bit. -/
theorem alarmHour_dec {h : Nat} (hh : h ≤ 23) (c : Bool) :
    hourDec ((hourEnc h ||| bitAt c 7) &&& 0x7F#8) = (h, true) ∧ bit (hourEnc h ||| bitAt c 7) 7 = c := by
  obtain ⟨hvalue, hbit⟩ := alarmTime_parts (show h ≤ 79 by omega) c
  exact ⟨(congrArg hourDec hvalue).trans (hourDec_hourEnc hh), hbit⟩

/-- A day-of byte decodes to its value, with a valid digit, and its control field. -/
theorem alarmDay_dec {v k : Nat} {f : Byte} (hv : v ≤ 31) (hf : f.toNat / 2 ^ k < 4) :
    bcdDec ((bcdEnc v ||| (f >>> k) <<< 6) &&& 0x3F#8) = v ∧
      bcdDigitsOk ((bcdEnc v ||| (f >>> k) <<< 6) &&& 0x3F#8) 5 = true ∧
      topTwo (bcdEnc v ||| (f >>> k) <<< 6) = f >>> k := by
  have hlow := toBcd_lt.2 (show v ≤ 39 by omega)
  have hbyte := alarmDay_toNat hv hf
  have hvalue : (bcdEnc v ||| (f >>> k) <<< 6) &&& 0x3F#8 = bcdEnc v := by
    refine BitVec.eq_of_toNat_eq ?_
    rw [mask3F_toNat, hbyte, bcdEnc_toBcd]; omega
  have hfield : topTwo (bcdEnc v ||| (f >>> k) <<< 6) = f >>> k := by
    refine BitVec.eq_of_toNat_eq ?_
    rw [topTwo_toNat, hbyte, BitVec.toNat_ushiftRight, Nat.shiftRight_eq_div_pow]; omega
  rw [hvalue]
  exact ⟨((bcd_roundTrip_iff v).2 (by omega)).1, bcdDigitsOk_bcdEnc_field v (by decide), hfield⟩

/-- A 5-bit control word is its three bits and its field. -/
theorem a1Word_eq {f : Byte} (hf : f.toNat ≤ 31) :
    bitAt (bit f 0) 0 ||| bitAt (bit f 1) 1 ||| bitAt (bit f 2) 2 ||| ((f >>> 3) <<< 3) = f := by
  have hfield : (f >>> 3).toNat = f.toNat / 8 := by simp [Nat.shiftRight_eq_div_pow]
  refine BitVec.eq_of_toNat_eq ?_
  rw [a1Word_toNat _ _ _ (by omega), hfield, bit_toNat, bit_toNat, bit_toNat]
  omega

/-- A 4-bit control word is its two bits and its field. -/
theorem a2Word_eq {f : Byte} (hf : f.toNat ≤ 15) :
    bitAt (bit f 0) 0 ||| bitAt (bit f 1) 1 ||| ((f >>> 2) <<< 2) = f := by
  have hfield : (f >>> 2).toNat = f.toNat / 4 := by simp [Nat.shiftRight_eq_div_pow]
  refine BitVec.eq_of_toNat_eq ?_
  rw [a2Word_toNat _ _ (by omega), hfield, bit_toNat, bit_toNat]
  omega

/-- `a1_dec` gives an alarm-one setting in range back from the bytes of `a1_enc`. -/
theorem a1Dec_a1Enc {x : AlarmOne} (hok : Reading.alarmOk x.second x.minute x.hour x.dayof)
    (hf : x.flags.toNat ≤ 31) :
    ∃ r0 r1 r2 r3 : Byte, a1Enc x = [r0, r1, r2, r3] ∧ a1Dec r0 r1 r2 r3 = (x, true) := by
  obtain ⟨hs, hmi, hh, -, hdy⟩ := hok
  have hmask : x.flags &&& 0x1F#8 = x.flags :=
    BitVec.eq_of_toNat_eq (by rw [mask1F_toNat, Nat.mod_eq_of_lt (by omega)])
  have hsecond := alarmTime_dec (show x.second ≤ 79 by omega)
  have hminute := alarmTime_dec (show x.minute ≤ 79 by omega)
  have hday := alarmDay_dec hdy (k := 3) (f := x.flags) (by omega)
  refine ⟨_, _, _, _, rfl, ?_⟩
  simp only [a1Dec, hmask, hsecond, hminute, alarmHour_dec hh, hday, a1Word_eq hf, Bool.and_self]

/-- `a2_dec` gives an alarm-two setting in range back from the bytes of `a2_enc`. -/
theorem a2Dec_a2Enc {x : AlarmTwo} (hok : Reading.alarmOk 0 x.minute x.hour x.dayof) (hf : x.flags.toNat ≤ 15) :
    ∃ r0 r1 r2 : Byte, a2Enc x = [r0, r1, r2] ∧ a2Dec r0 r1 r2 = (x, true) := by
  obtain ⟨-, hmi, hh, -, hdy⟩ := hok
  have hmask : x.flags &&& 0x0F#8 = x.flags :=
    BitVec.eq_of_toNat_eq (by rw [mask0F_toNat, Nat.mod_eq_of_lt (by omega)])
  have hminute := alarmTime_dec (show x.minute ≤ 79 by omega)
  have hday := alarmDay_dec hdy (k := 2) (f := x.flags) (by omega)
  refine ⟨_, _, _, rfl, ?_⟩
  simp only [a2Dec, hmask, hminute, alarmHour_dec hh, hday, a2Word_eq hf, Bool.and_self]

/-- Settles O31: the BCD values, the control bits and the control fields all come back. -/
theorem alarmRoundTrip : Obligations.AlarmRoundTrip :=
  ⟨fun _ => a1Dec_a1Enc, fun _ => a2Dec_a2Enc⟩

end Sys2Proof.Machine
end

section
/-! PROOFS. The family 45_control_status.md: an operation that is one read-modify-write completes by the replies to its two
transactions (`RmwCases.of_rmw`), and the byte it stores has one field replaced (`rmwByte_field`). A blocking FORCECONV is
followed from poll to poll (`pollConv_ends`), and SIM with no explicit answers from state to state (`State.Plain`). -/

namespace Sys2Proof.Machine

/-! ### The byte a read-modify-write stores -/

/-- The bits outside `clr` and `set` are stored as read (R324). -/
theorem rmwByte_outside {clr set mask : Byte} (h : (clr ||| set) &&& ~~~mask = 0) (t : Byte) :
    rmwByte t clr set &&& ~~~mask = t &&& ~~~mask := by
  refine BitVec.eq_of_getLsbD_eq fun j hj => ?_
  cases hm : mask.getLsbD j with
  | true => simp [hm]
  | false =>
    have hkeep : clr.getLsbD j = false ∧ set.getLsbD j = false := by
      simpa [-BitVec.getLsbD_eq_getElem, hm, hj] using congrArg (·.getLsbD j) h
    obtain ⟨hclr, hset⟩ := hkeep
    simp only [rmwByte, BitVec.getLsbD_and, BitVec.getLsbD_or, BitVec.getLsbD_not, hj, hm, hclr, hset, Bool.not_false,
      Bool.and_true, Bool.or_false, decide_true]

/-- A read-modify-write that clears the `n` bits from bit `lo` up and sets `v` there replaces that field, and keeps the bits
above it and below it. -/
theorem rmwByte_field {clr set : Byte} {lo n v : Nat} (hclr : clr.toNat = 2 ^ lo * (2 ^ n - 1))
    (hset : set.toNat = 2 ^ lo * v) (hv : v < 2 ^ n) (t : Byte) :
    rmwByte t clr set =
      BitVec.ofNat 8 (t.toNat / 2 ^ (lo + n) * 2 ^ (lo + n) + 2 ^ lo * v + t.toNat % 2 ^ lo) := by
  have hlow : t.toNat % 2 ^ lo < 2 ^ lo := Nat.mod_lt _ (Nat.two_pow_pos lo)
  have hmid : 2 ^ lo * v + t.toNat % 2 ^ lo < 2 ^ (lo + n) := by
    calc 2 ^ lo * v + t.toNat % 2 ^ lo < 2 ^ lo * (v + 1) := by rw [Nat.mul_succ]; omega
      _ ≤ 2 ^ lo * 2 ^ n := Nat.mul_le_mul_left _ hv
      _ = 2 ^ (lo + n) := (Nat.pow_add ..).symm
  refine BitVec.eq_of_getLsbD_eq fun j hj => ?_
  rw [BitVec.getLsbD_ofNat, Nat.mul_comm _ (2 ^ (lo + n)), Nat.add_assoc, Nat.testBit_two_pow_mul_add _ hmid,
    Nat.testBit_two_pow_mul_add _ hlow, Nat.testBit_mod_two_pow, Nat.testBit_div_two_pow]
  have hclear : clr.getLsbD j = (decide (lo ≤ j) && decide (j - lo < n)) := by
    rw [BitVec.getLsbD, hclr, Nat.testBit_two_pow_mul, Nat.testBit_two_pow_sub_one]
  have hsets : set.getLsbD j = (decide (lo ≤ j) && v.testBit (j - lo)) := by
    rw [BitVec.getLsbD, hset, Nat.testBit_two_pow_mul]
  simp only [rmwByte, BitVec.getLsbD_or, BitVec.getLsbD_and, BitVec.getLsbD_not, hj, hclear, hsets]
  by_cases hbelow : j < lo
  · simp [hbelow, show ¬lo ≤ j by omega, show j < lo + n by omega, BitVec.testBit_toNat]
  by_cases hfield : j < lo + n
  · simp [hbelow, hfield, show lo ≤ j by omega, show j - lo < n by omega]
  · have habove : v.testBit (j - lo) = false :=
      Nat.testBit_lt_two_pow (hv.trans_le (Nat.pow_le_pow_right (by decide) (by omega)))
    simp [hfield, habove, show ¬j - lo < n by omega, show j - (lo + n) + (lo + n) = j by omega, BitVec.testBit_toNat]

theorem shiftLeft3_toNat {a : Byte} (h : a.toNat ≤ 3) : (a <<< 3).toNat = 2 ^ 3 * a.toNat := by
  rw [BitVec.toNat_shiftLeft, Nat.shiftLeft_eq]; omega

/-- The byte SETRUN stores (R304). -/
theorem rmwByte_eosc {a : Byte} (h : a.toNat ≤ 1) (t : Byte) :
    rmwByte t maskEOSC (if a.toNat = 1 then 0x00#8 else maskEOSC) =
      BitVec.ofNat 8 (t.toNat % 128 + if a.toNat = 1 then 0 else 128) := by
  have hset : (if a.toNat = 1 then 0x00#8 else maskEOSC).toNat = 2 ^ 7 * (1 - a.toNat) := by
    obtain h | h := Nat.le_one_iff_eq_zero_or_eq_one.1 h <;> rw [h] <;> rfl
  have hbyte := t.isLt
  rw [rmwByte_field (n := 1) rfl hset (by omega)]
  congr 1
  split <;> omega

/-- The byte SET32K stores (R306). -/
theorem rmwByte_en32kHz {a : Byte} (h : a.toNat ≤ 1) (t : Byte) :
    rmwByte t maskEN32KHZ (a <<< 3) = BitVec.ofNat 8 (t.toNat / 16 * 16 + 8 * a.toNat + t.toNat % 8) :=
  rmwByte_field (n := 1) rfl (shiftLeft3_toNat (by omega)) (by omega) t

/-- The byte SQWRATE stores (R310). -/
theorem rmwByte_rate {a : Byte} (h : a.toNat ≤ 3) (t : Byte) :
    rmwByte t maskRS (a <<< 3) = BitVec.ofNat 8 (t.toNat / 32 * 32 + 8 * a.toNat + t.toNat % 8) :=
  rmwByte_field (n := 2) rfl (shiftLeft3_toNat h) (by omega) t

/-- The byte LATCHAF stores (R312). -/
theorem rmwByte_alarmFlags (t : Byte) :
    rmwByte t (maskA1F ||| maskA2F) 0x00#8 = BitVec.ofNat 8 (t.toNat / 4 * 4) := by
  rw [rmwByte_field (lo := 0) (n := 2) (v := 0) rfl rfl (by decide), Nat.pow_zero, Nat.mod_one]
  rfl

/-- The byte FORCECONV stores (R316). -/
theorem rmwByte_conv (t : Byte) : rmwByte t 0x00#8 maskCONV = t ||| 0x20#8 :=
  congrArg (· ||| maskCONV) BitVec.and_allOnes

theorem conv_set (t : Byte) : conv (t ||| 0x20#8) = true := by
  simp [conv, bit]

/-- The alarm flags of a status byte (R312). -/
theorem and_alarmFlags (t : Byte) : t &&& (maskA1F ||| maskA2F) = BitVec.ofNat 8 (t.toNat % 4) := by
  refine BitVec.eq_of_toNat_eq ?_
  have hand : (t &&& (maskA1F ||| maskA2F)).toNat = t.toNat % 4 := Nat.and_two_pow_sub_one_eq_mod t.toNat 2
  rw [hand, BitVec.toNat_ofNat]
  omega

/-- The bits a mask clears are clear. -/
theorem cleared_and (b mask : Byte) : b &&& ~~~mask &&& mask = 0 := by
  rw [BitVec.and_assoc, BitVec.and_comm (~~~mask), BitVec.and_not_self]
  exact BitVec.and_zero

/-- A byte's bit 7 is clear exactly below 128. -/
theorem boolByte_not_bit7 (b : Byte) : boolByte (!bit b 7) = if b.toNat < 128 then 1 else 0 := by
  have hbyte := b.isLt
  have hbit : (!bit b 7) = decide (b.toNat < 128) := by
    rw [bit_eq, ← decide_not, decide_eq_decide]; omega
  simp [hbit, boolByte]

/-! ### The operations of one transaction (R300, R302, R320, R322) -/

/-- Settles O32: GETVALID finishes an acknowledged read with the complement of OSF. -/
theorem getvalidReportsOsfClear : Obligations.GetvalidReportsOsfClear := by
  intro s hn
  rw [← boolByte_not_bit7]
  exact ⟨decode_encode .getvalid, .of_memRead (r := ⟨.ok, _⟩) hn (by decide) rfl fun _ => rfl⟩

/-- Settles O33: GETRUN finishes an acknowledged read with the complement of EOSC. -/
theorem getrunReportsEoscClear : Obligations.GetrunReportsEoscClear := by
  intro s hn
  rw [← boolByte_not_bit7]
  exact ⟨decode_encode .getrun, .of_memRead (r := ⟨.ok, _⟩) hn (by decide) rfl fun _ => rfl⟩

/-- Settles O41: GETAGE finishes an acknowledged read with the byte read. -/
theorem getageReturnsTheRawByte : Obligations.GetageReturnsTheRawByte :=
  fun s hn => ⟨decode_encode .getage, .of_memRead (r := ⟨.ok, _⟩) hn (by decide) rfl fun _ => rfl⟩

/-- Settles O42: SETAGE is one write of its operand. -/
theorem setageWritesTheRawByte : Obligations.SetageWritesTheRawByte :=
  fun a _ hn => ⟨decode_encode (.setage a), .of_memWrite hn rfl⟩

/-! ### Operations of one read-modify-write -/

section

variable {i : Instr} {s : State} {addr : Nat} {clr set w : Byte} {k : Byte → State → State}

theorem rmwRead_events (addr : Nat) (s : State) :
    (rmwRead addr s).events = s.events ++ [.read addr 1 .ack [s.dataAt addr 0]] := by
  simp [rmwRead, State.dataBytes, List.range_succ]

/-- A read-modify-write whose read is not acknowledged completes with BUS_ERROR (R343). -/
theorem Completes.of_rmw_nackRead (hn : s.resetIn = none) (h : exec i s = .next (rmw addr clr set s.begin k))
    (h0 : (s.answerAt 0).reply = .nack) : Completes i s .busError [] [.read addr 1 .nack []] :=
  .of_respond (h.trans (congrArg _ (rmw_nackRead addr clr set (s := s.begin) k hn h0))) rfl
    ⟨rfl, rfl, rfl, rfl, by simp [hn]⟩

/-- A read-modify-write whose write is not acknowledged completes with BUS_ERROR (R343). -/
theorem Completes.of_rmw_nackWrite (hn : s.resetIn = none) (h : exec i s = .next (rmw addr clr set s.begin k))
    (hw : rmwByte (s.dataAt addr 0) clr set = w) (h0 : (s.answerAt 0).reply = .ack)
    (h1 : (s.answerAt 1).reply = .nack) :
    Completes i s .busError [] [.read addr 1 .ack [s.dataAt addr 0], .write addr [w] .nack] := by
  subst hw
  exact .of_respond (h.trans (congrArg _ (rmw_nackWrite addr clr set (s := s.begin) k hn h0 h1)))
    (by simp [rmwRead_events]) ⟨rfl, rfl, rfl, rfl, by simp [rmwRead, hn]⟩

/-- An operation goes on after its acknowledged read-modify-write. -/
theorem exec_eq_of_rmw (hn : s.resetIn = none) (h : exec i s = .next (rmw addr clr set s.begin k))
    (h0 : (s.answerAt 0).reply = .ack) (h1 : (s.answerAt 1).reply = .ack) :
    exec i s = .next (k (s.dataAt addr 0) (rmwDone addr clr set s.begin)) :=
  h.trans (congrArg _ (rmw_eq_rmwDone hn h0 h1))

theorem rmwDone_kept (hn : s.resetIn = none) : Kept s (rmwDone addr clr set s.begin) :=
  ⟨rfl, rfl, rfl, rfl, rmwDone_resetIn (s := s.begin) hn⟩

/-- An operation that is one read-modify-write finishes when both transactions are acknowledged, and ends with BUS_ERROR at
the first that is not (R280, R343). -/
theorem RmwCases.of_rmw {results : List Byte} (hn : s.resetIn = none) (hmap : addr + 1 ≤ 19)
    (h : exec i s = .next (rmw addr clr set s.begin k)) (hw : rmwByte (s.dataAt addr 0) clr set = w)
    (hk : ∀ u, k (s.dataAt addr 0) u = finish results u) : RmwCases i s addr w results := by
  refine ⟨.of_rmw_nackRead hn h, .of_rmw_nackWrite hn h hw, fun h0 h1 => ?_, s.readsContents hmap⟩
  have hend := (exec_eq_of_rmw hn h h0 h1).trans (congrArg _ (hk _))
  exact .of_respond hend (by simp [rmwDone_events, hw]) (rmwDone_kept hn)

end

/-! ### The setters with an operand in its domain (R304, R306, R310, R316) -/

theorem boolArg_eq_some {a : Byte} (h : a.toNat ≤ 1) : boolArg a = some (decide (a.toNat = 1)) := by
  obtain h | h := Nat.le_one_iff_eq_zero_or_eq_one.1 h <;> simp [boolArg, h]

theorem boolArg_eq_none {a : Byte} (h : 1 < a.toNat) : boolArg a = none := by
  unfold boolArg
  split
  · omega
  · omega
  · rfl

theorem exec_setrun {a : Byte} (h : a.toNat ≤ 1) (s : State) :
    exec (.setrun a) s = .next (rmw 0x0E maskEOSC (if a.toNat = 1 then 0x00#8 else maskEOSC) s.begin
      fun _ s => finish [] s) := by
  simp [exec, execSetrun, boolArg_eq_some h]

theorem exec_set32k {a : Byte} (h : a.toNat ≤ 1) (s : State) :
    exec (.set32k a) s = .next (rmw 0x0F maskEN32KHZ (a <<< 3) s.begin fun _ s => finish [] s) := by
  simp [exec, execSet32k, boolArg_eq_some h]

theorem exec_sqwrate {a : Byte} (h : a.toNat ≤ 3) (s : State) :
    exec (.sqwrate a) s = .next (rmw 0x0E maskRS (a <<< 3) s.begin fun _ s => finish [] s) := by
  simp [exec, execSqwrate, rateArgOk, h]

theorem exec_forceconv {a : Byte} (h : a.toNat ≤ 1) (s : State) :
    exec (.forceconv a) s = .next (rmw 0x0E 0x00#8 maskCONV s.begin fun _ s =>
      if a.toNat = 1 then pollConv s.convPollMax (s.holdK 0) else finish [] s) := by
  simp [exec, execForceconv, boolArg_eq_some h]

/-- Settles O34: SETRUN replaces the field EOSC. -/
theorem setrunWritesEosc : Obligations.SetrunWritesEosc := by
  intro a s hn
  refine ⟨decode_encode (.setrun a), fun h => .of_raise hn ?_,
    fun h => .of_rmw hn (by decide) (exec_setrun h s) (rmwByte_eosc h _) fun _ => rfl⟩
  simp [exec, execSetrun, boolArg_eq_none h]

/-- Settles O35: SET32K replaces the field EN32KHZ. -/
theorem set32kWritesTheEnable : Obligations.Set32kWritesTheEnable := by
  intro a s hn
  refine ⟨decode_encode (.set32k a), fun h => .of_raise hn ?_,
    fun h => .of_rmw hn (by decide) (exec_set32k h s) (rmwByte_en32kHz h _) fun _ => rfl⟩
  simp [exec, execSet32k, boolArg_eq_none h]

/-- Settles O37: SQWRATE replaces the field RS2:RS1. -/
theorem sqwrateReplacesTheRateField : Obligations.SqwrateReplacesTheRateField := by
  intro a s hn
  refine ⟨decode_encode (.sqwrate a), fun h => .of_raise hn ?_,
    fun h => .of_rmw hn (by decide) (exec_sqwrate h s) (rmwByte_rate h _) fun _ => rfl⟩
  simp [exec, execSqwrate, rateArgOk, Nat.not_le.2 h]

/-- Settles O38: LATCHAF clears the field of the alarm flags and finishes with it as read. -/
theorem latchafReportsAndClears : Obligations.LatchafReportsAndClears := by
  intro s hn
  rw [← and_alarmFlags]
  exact ⟨decode_encode .latchaf, .of_rmw hn (by decide) rfl (rmwByte_alarmFlags _) fun _ => rfl⟩

/-! ### The bits a setter owns (R281) -/

/-- Operation `i` from `s` is a read-modify-write of the register at `addr` that clears and sets no bit outside `mask`, after
which it only adds to the history. -/
def OwnsBits (i : Instr) (addr : Nat) (mask : Byte) (s : State) : Prop :=
  ∃ clr set k, exec i s = .next (rmw addr clr set s.begin k) ∧ (clr ||| set) &&& ~~~mask = 0 ∧
    ∀ b u, ∃ later, (k b u).events = u.events ++ later

/-- A read-modify-write with nothing after it but the response. -/
theorem OwnsBits.of_finish {i : Instr} {addr : Nat} {mask clr set : Byte} {s : State} {results : Byte → List Byte}
    (h : exec i s = .next (rmw addr clr set s.begin fun t s => finish (results t) s))
    (hmask : (clr ||| set) &&& ~~~mask = 0) : OwnsBits i addr mask s :=
  ⟨clr, set, _, h, hmask, fun _ _ => ⟨[], by simp [finish]⟩⟩

/-- A run only adds to the history. -/
theorem Runs.events_append {i : Instr} {l : List Transaction} {s t : State} (h : Runs i l s t) :
    ∃ later, t.events = s.events ++ later := by
  obtain ⟨later, hlater, -⟩ := h.follows
  exact ⟨later, hlater⟩

theorem eq_of_le_one {a : Byte} (h : a.toNat ≤ 1) : a = 0#8 ∨ a = 1#8 := by
  simp only [← BitVec.toNat_inj]; exact Nat.le_one_iff_eq_zero_or_eq_one.1 h

theorem eq_of_le_three {a : Byte} (h : a.toNat ≤ 3) : a = 0#8 ∨ a = 1#8 ∨ a = 2#8 ∨ a = 3#8 := by
  simp only [← BitVec.toNat_inj, BitVec.reduceToNat]; omega

/-- The operations of R281 with operands in their domains own the bits the table of R281 gives them. -/
theorem exec_ownsBits {i : Instr} {addr : Nat} {mask : Byte} (hw : i.wellFormed = true)
    (ho : ownedBits i = some (addr, mask)) (s : State) : OwnsBits i addr mask s := by
  cases i <;> cases ho
  case setdt y mo d h mi sec =>
    refine ⟨maskOSF, 0x00#8, fun _ s => memWrite 0x00 (dtEnc (dtOf y mo d h mi sec)) s fun s => finish [] s, ?_,
      by decide, fun _ _ => ?_⟩
    · rw [exec, execSetdt, if_pos (dtArgsOk_of_dtOk (dtOk_of_wellFormed hw))]
    · exact (Runs.memWrite (i := .setdt y mo d h mi sec) rfl fun _ _ => .finish rfl).events_append
  case setrun a =>
    have ha : a.toNat ≤ 1 := of_decide_eq_true hw
    refine .of_finish (results := fun _ => []) (exec_setrun ha s) ?_
    split <;> decide
  case set32k a =>
    have ha : a.toNat ≤ 1 := of_decide_eq_true hw
    refine .of_finish (results := fun _ => []) (exec_set32k ha s) ?_
    obtain rfl | rfl := eq_of_le_one ha <;> decide
  case sqwmode a =>
    obtain ⟨m, hm⟩ := sqwModeOf_of_le (of_decide_eq_true hw)
    refine .of_finish (clr := modeClear) (set := modeSet m) (results := fun _ => []) ?_ ?_
    · rw [exec, execSqwmode, hm]
    · cases m <;> decide
  case sqwrate a =>
    have ha : a.toNat ≤ 3 := of_decide_eq_true hw
    refine .of_finish (results := fun _ => []) (exec_sqwrate ha s) ?_
    obtain rfl | rfl | rfl | rfl := eq_of_le_three ha <;> decide
  case latchaf => exact .of_finish rfl (by decide)
  case forceconv a =>
    obtain ⟨wait, hwait⟩ := boolArg_of_boolean hw
    refine ⟨0x00#8, maskCONV, _, ?_, by decide, fun _ _ => (Runs.afterRmw_forceconv hwait rfl).events_append⟩
    rw [exec, execForceconv, hwait]

/-- Settles O43: what a setter's read-modify-write clears and sets lies in the bits it owns. -/
theorem onlyOwnedBitsChange : Obligations.OnlyOwnedBitsChange := by
  intro i s addr mask hn hw ho h0 h1
  obtain ⟨clr, set, k, hexec, hmask, hk⟩ := exec_ownsBits hw ho s
  obtain ⟨later, hlater⟩ := hk (s.dataAt addr 0) (rmwDone addr clr set s.begin)
  exact ⟨_, rmwByte (s.dataAt addr 0) clr set, later, exec_eq_of_rmw hn hexec h0 h1,
    by simpa [rmwDone_events] using hlater, rmwByte_outside hmask _⟩

/-! ### The device that answers with its contents (R73) -/

/-- SIM with no explicit answer or change coming, and no reset: every answer is its own. -/
structure State.Plain (s : State) : Prop where
  quiet : s.Quiet
  script : s.script = []
  resetIn : s.resetIn = none
  wf : s.dev.wf = true

namespace State.Plain

variable {s : State} {addr : Nat} {clr set : Byte}

/-- SIM acknowledges every transaction. -/
theorem ack (h : s.Plain) (j : Nat) : (s.answerAt j).reply = .ack := by
  simp [State.answerAt, h.script, h.quiet.sim, Transport.answer]

theorem read?_eq (h : s.Plain) (ha : addr < 19) : s.dev.read? addr = some (s.dataAt addr 0) :=
  s.readsContents (n := 1) ha h.quiet h.script h.wf 0 (by decide)

theorem dataAt_eq (h : s.Plain) (ha : addr < 19) {b : Byte} (hb : s.dev.read? addr = some b) : s.dataAt addr 0 = b :=
  Option.some.inj ((h.read?_eq ha).symm.trans hb)

theorem begin (h : s.Plain) : s.begin.Plain := ⟨h.quiet.mono rfl fun _ => id, h.script, h.resetIn, h.wf⟩

theorem mapBusy (h : s.Plain) (f : Busy → Busy) : (s.mapBusy f).Plain :=
  ⟨h.quiet.mono rfl fun _ => id, h.script, h.resetIn, h.wf⟩

theorem issued (h : s.Plain) (e : Event) {d : Memory} (hd : d.wf = true) : (s.issued e d).Plain :=
  ⟨h.quiet.issued e d, by simp [h.script], by simp [h.resetIn], by rw [h.quiet.issued_dev]; exact hd⟩

theorem respond (h : s.Plain) (r : Response) : (respond r s).Plain := by
  rw [respond_none r h.resetIn]
  exact ⟨h.quiet.mono rfl fun _ => List.mem_of_mem_tail, h.script, by simp [h.resetIn], (tick_wf _).trans h.wf⟩

theorem rmwDone (h : s.Plain) (addr : Nat) (clr set : Byte) : (rmwDone addr clr set s).Plain := by
  have hread : (rmwRead addr s).Plain := (((h.issued _ h.wf).mapBusy _).mapBusy _).mapBusy _
  exact (hread.issued _ (by simpa using hread.wf)).mapBusy _

/-- A read-modify-write leaves the byte it stores in its register. -/
theorem rmwDone_read? (h : s.Plain) (ha : addr < 19) :
    (Machine.rmwDone addr clr set s).dev.read? addr = some (rmwByte (s.dataAt addr 0) clr set) := by
  rw [(h.quiet.stillFor (0 + 2)).rmwDone_dev, Memory.read?_writeBytes h.wf ha]
  simp

/-- LATCHAF reports the alarm flags and leaves them clear (R312). -/
theorem latchaf (h : s.Plain) : ∃ t, exec .latchaf s = .next t ∧ t.Plain ∧
    t.response = some { status := .ok, results := [s.dataAt 0x0F 0 &&& 0x03] } ∧
    t.dataAt 0x0F 0 = s.dataAt 0x0F 0 &&& ~~~0x03 := by
  refine ⟨_, exec_eq_of_rmw h.resetIn rfl (h.ack 0) (h.ack 1), (h.begin.rmwDone ..).respond _,
    respond_response _ (rmwDone_resetIn h.resetIn), ?_⟩
  have hdone : (Machine.rmwDone 0x0F (maskA1F ||| maskA2F) 0x00#8 s.begin).Plain := h.begin.rmwDone ..
  have hstored := h.begin.rmwDone_read? (addr := 0x0F) (clr := maskA1F ||| maskA2F) (set := 0x00#8) (by decide)
  refine (hdone.respond _).dataAt_eq (by decide) ?_
  rw [hdone.quiet.respond_dev, hstored, rmwByte, BitVec.or_zero]
  rfl

end State.Plain

/-- Settles O39: the first LATCHAF leaves the flags clear, and the second reports them so. -/
theorem secondLatchafReadsClear : Obligations.SecondLatchafReadsClear := by
  intro s hq hscript hn hwf
  have h : s.Plain := ⟨hq, hscript, hn, hwf⟩
  obtain ⟨t, ht, hplain, hfirst, hclear⟩ := h.latchaf
  obtain ⟨u, hu, -, hsecond, -⟩ := hplain.latchaf
  refine ⟨t, u, _, ht, h.read?_eq (by decide), hfirst, hu, ?_⟩
  rw [hsecond, hclear, cleared_and]

/-! ### FORCECONV (R316) -/

/-- The run from `s` has come to rest at `t` with the response `r`, having issued `issued`. -/
def Ends (r : Response) (issued : List Event) (s t : State) : Prop :=
  t.seq = .idle ∧ t.response = some r ∧ t.events = s.events ++ issued ∧ Kept s t

theorem Ends.completes {i : Instr} {s t : State} {st : Status} {results : List Byte} {issued : List Event}
    (h : Ends { status := st, results } issued s t) (hexec : exec i s = .next t) : Completes i s st results issued :=
  ⟨t, hexec, h⟩

theorem Ends.of_respond (r : Response) {s : State} (hn : s.resetIn = none) : Ends r [] s (respond r s) := by
  rw [respond_none r hn]
  exact ⟨rfl, rfl, (List.append_nil _).symm, rfl, rfl, rfl, rfl, by simp [hn]⟩

theorem Ends.after {r : Response} {first later : List Event} {s u t : State} (h : Ends r later u t)
    (he : u.events = s.events ++ first) (hk : Kept s u) : Ends r (first ++ later) s t := by
  obtain ⟨hseq, hresponse, hevents, hkept⟩ := h
  exact ⟨hseq, hresponse, by rw [hevents, he, List.append_assoc], hkept.command.trans hk.command,
    hkept.host.trans hk.host, hkept.transport.trans hk.transport, hkept.convPollMax.trans hk.convPollMax, hkept.resetIn⟩

section

variable {s : State} {n : Nat}

theorem pollRead_events (s : State) :
    (pollRead s).events = s.events ++ [.read 0x0E 1 .ack [s.dataAt 0x0E 0]] := by
  simp [pollRead, State.dataBytes, List.range_succ]

theorem pollRead_answerAt (s : State) (j : Nat) : (pollRead s).answerAt j = s.answerAt (j + 1) := by
  simp [pollRead]

theorem pollRead_kept (hn : s.resetIn = none) : Kept s (pollRead s) :=
  ⟨rfl, rfl, rfl, rfl, by simp [pollRead, hn]⟩

theorem pollConv_nack (hn : s.resetIn = none) (h0 : (s.answerAt 0).reply = .nack) :
    pollConv (n + 1) s = raise .busError (s.issued (.read 0x0E 1 .nack []) s.dev) :=
  memRead_nack 0x0E 1 _ hn h0

theorem pollConv_again (hn : s.resetIn = none) (h0 : (s.answerAt 0).reply = .ack)
    (hc : conv (s.dataAt 0x0E 0) = true) : pollConv (n + 1) s = pollConv n (pollRead s) :=
  (memRead_ack 0x0E 1 _ hn h0).trans (if_pos hc)

theorem pollConv_done (hn : s.resetIn = none) (h0 : (s.answerAt 0).reply = .ack)
    (hc : conv (s.dataAt 0x0E 0) = false) : pollConv (n + 1) s = finish [] (pollRead s) :=
  (memRead_ack 0x0E 1 _ hn h0).trans (if_neg (by simp [hc]))

/-- A poll read ends a run of polls when it finds CONV 0. -/
theorem pollStatus_ack (n : Nat) (d : Byte) (polls : List Event) :
    pollStatus (n + 1) (.read 0x0E 1 .ack [d] :: polls) =
      if conv d then pollStatus n polls else if polls = [] then some .ok else none := by
  simp [pollStatus, conv, bit_eq]

/-- Poll `j` ends as the device's answer `j` does, and reads the byte that answer lists. -/
def PollsAnswered (s : State) (polls : List Event) : Prop :=
  ∀ (j : Nat) (e : Event), polls[j]? = some e → e.reply = (s.answerAt j).reply ∧
    (e.reply = .ack → ∀ d, (s.answerAt j).data[0]? = some d → e = .read 0x0E 1 .ack [d])

theorem pollsAnswered_nil (s : State) : PollsAnswered s [] := nofun

theorem PollsAnswered.cons {e : Event} {polls : List Event} (h : PollsAnswered (pollRead s) polls)
    (hreply : e.reply = (s.answerAt 0).reply)
    (hdata : e.reply = .ack → ∀ d, (s.answerAt 0).data[0]? = some d → e = .read 0x0E 1 .ack [d]) :
    PollsAnswered s (e :: polls) := by
  intro j e' he
  cases j with
  | zero => cases he; exact ⟨hreply, hdata⟩
  | succ j =>
    rw [← pollRead_answerAt]
    exact h j e' he

/-- An acknowledged poll read reads the byte its answer lists. -/
theorem PollsAnswered.cons_ack {polls : List Event} (h : PollsAnswered (pollRead s) polls)
    (h0 : (s.answerAt 0).reply = .ack) : PollsAnswered s (.read 0x0E 1 .ack [s.dataAt 0x0E 0] :: polls) :=
  h.cons h0.symm fun _ d hd => by simp [State.dataAt, hd]

/-- The polls of a blocking FORCECONV whose transactions return end as their answers make them end (R316). -/
theorem pollConv_ends (n : Nat) {s : State} (hn : s.resetIn = none)
    (hreturns : ∀ j, j < n → (s.answerAt j).reply ≠ .silent) :
    ∃ polls st, pollStatus n polls = some st ∧ PollsAnswered s polls ∧
      Ends { status := st, results := [] } polls s (pollConv n s) := by
  induction n generalizing s with
  | zero => exact ⟨[], .convTimeout, rfl, pollsAnswered_nil s, .of_respond _ hn⟩
  | succ n ih =>
    have hkept := pollRead_kept hn
    cases h0 : (s.answerAt 0).reply with
    | silent => exact absurd h0 (hreturns 0 (by omega))
    | nack =>
      refine ⟨[.read 0x0E 1 .nack []], .busError, rfl, (pollsAnswered_nil _).cons h0.symm nofun, ?_⟩
      rw [pollConv_nack hn h0]
      have hissued : Kept s (s.issued (.read 0x0E 1 .nack []) s.dev) := ⟨rfl, rfl, rfl, rfl, by simp [hn]⟩
      exact (Ends.of_respond _ hissued.resetIn).after rfl hissued
    | ack =>
      cases hc : conv (s.dataAt 0x0E 0) with
      | true =>
        have hlater : ∀ j, j < n → ((pollRead s).answerAt j).reply ≠ .silent := fun j hj => by
          rw [pollRead_answerAt]; exact hreturns (j + 1) (by omega)
        obtain ⟨polls, st, hstatus, hanswered, hends⟩ := ih hkept.resetIn hlater
        refine ⟨_ :: polls, st, ?_, hanswered.cons_ack h0, ?_⟩
        · rw [pollStatus_ack, if_pos hc, hstatus]
        · rw [pollConv_again hn h0 hc]
          exact hends.after (pollRead_events s) hkept
      | false =>
        refine ⟨[.read 0x0E 1 .ack [s.dataAt 0x0E 0]], .ok, ?_, (pollsAnswered_nil _).cons_ack h0, ?_⟩
        · simp [pollStatus_ack, hc]
        · rw [pollConv_done hn h0 hc]
          exact (Ends.of_respond _ hkept.resetIn).after (pollRead_events s) hkept

/-- On SIM nothing clears CONV, so every poll is made. -/
theorem State.Plain.pollConv_ends (n : Nat) {s : State} {b : Byte} (h : s.Plain) (hb : s.dev.read? 0x0E = some b)
    (hc : conv b = true) :
    Ends { status := .convTimeout, results := [] } (List.replicate n (.read 0x0E 1 .ack [b])) s (pollConv n s) := by
  induction n generalizing s with
  | zero => exact .of_respond _ h.resetIn
  | succ n ih =>
    have hdata : s.dataAt 0x0E 0 = b := h.dataAt_eq (by decide) hb
    have hread : (pollRead s).Plain := (((h.issued _ h.wf).mapBusy _).mapBusy _).mapBusy _
    have hdev : (pollRead s).dev = s.dev := h.quiet.issued_dev _ _
    rw [pollConv_again h.resetIn (h.ack 0) (hdata ▸ hc), List.replicate_succ, ← List.singleton_append]
    exact (ih hread (hdev ▸ hb)).after (hdata ▸ pollRead_events s) (pollRead_kept h.resetIn)

end

section

variable {a : Byte} {s : State}

/-- The state in which a blocking FORCECONV begins to poll. -/
def pollStart (s : State) : State := (rmwDone 0x0E 0x00#8 maskCONV s.begin).holdK 0

theorem exec_forceconv_polls (ha : a.toNat = 1) (hn : s.resetIn = none) (h0 : (s.answerAt 0).reply = .ack)
    (h1 : (s.answerAt 1).reply = .ack) :
    exec (.forceconv a) s = .next (pollConv s.convPollMax (pollStart s)) :=
  (exec_eq_of_rmw hn (exec_forceconv ha.le s) h0 h1).trans (congrArg _ (if_pos ha))

theorem pollStart_events (s : State) : (pollStart s).events = s.events ++
    [.read 0x0E 1 .ack [s.dataAt 0x0E 0], .write 0x0E [s.dataAt 0x0E 0 ||| 0x20#8] .ack] := by
  simp [pollStart, rmwDone_events, rmwByte_conv]

theorem pollStart_answerAt (s : State) (j : Nat) : (pollStart s).answerAt j = s.answerAt (2 + j) := by
  simp [pollStart, rmwDone_answerAt, Nat.add_comm]

theorem pollStart_kept (hn : s.resetIn = none) : Kept s (pollStart s) :=
  ⟨rfl, rfl, rfl, rfl, (rmwDone_kept hn).resetIn⟩

end

/-- Settles O40: FORCECONV is a read-modify-write that sets CONV, and then the polls. -/
theorem forceconvSetsConvAndPolls : Obligations.ForceconvSetsConvAndPolls := by
  intro a s hn
  have hw := rmwByte_conv (s.dataAt 0x0E 0)
  refine ⟨decode_encode (.forceconv a), fun h => .of_raise hn ?_, fun h => ?_, fun h => ?_⟩
  · simp [exec, execForceconv, boolArg_eq_none h]
  · exact .of_rmw hn (by decide) (exec_forceconv (by omega) s) hw fun _ => if_neg (by omega)
  have hexec := exec_forceconv h.le s
  refine ⟨.of_rmw_nackRead hn hexec, .of_rmw_nackWrite hn hexec hw, fun h0 h1 hreturns => ?_,
    fun hq hscript hwf => ?_⟩
  · obtain ⟨polls, st, hstatus, hanswered, hends⟩ := pollConv_ends s.convPollMax (pollStart_kept hn).resetIn
      (by simpa only [pollStart_answerAt] using hreturns)
    exact ⟨polls, st, hstatus, by simpa only [PollsAnswered, pollStart_answerAt] using hanswered,
      (hends.after (pollStart_events s) (pollStart_kept hn)).completes (exec_forceconv_polls h hn h0 h1)⟩
  · have hplain : s.Plain := ⟨hq, hscript, hn, hwf⟩
    have hstored : (pollStart s).dev.read? 0x0E = some (s.dataAt 0x0E 0 ||| 0x20#8) :=
      (hplain.begin.rmwDone_read? (by decide)).trans (congrArg some hw)
    have hstart : (pollStart s).Plain := (hplain.begin.rmwDone ..).mapBusy _
    exact ((hstart.pollConv_ends _ hstored (conv_set _)).after (pollStart_events s) (pollStart_kept hn)).completes
      (exec_forceconv_polls h hn (hplain.ack 0) (hplain.ack 1))

end Sys2Proof.Machine
end

section
/-! PROOFS. The family 60_exceptions.md: what a step is in each of its cases is said by one equation each; what an
operation does while no reset is asserted is acknowledged transactions (`Acked`) and then one of three ends (`Rests`,
`exec_rests`): a response it has come to by itself (`Earned`), BUS_ERROR, or a transaction that never returns. -/

namespace Sys2Proof.Machine

/-! ### A step (R350, R358, R381) -/

section

variable {s : State} {frame : List Byte} {rest : List (List Byte)}

/-- A BUSY block with no reset due stays as it is (R358). -/
theorem step_busy {b : Busy} (hq : s.seq = .busy b) (hn : s.resetIn ≠ some 0) : step s = .next s.tick := by
  simp [step, State.resetDue, hn, hq]

/-- An IDLE block with no frame left and no reset due waits (R381). -/
theorem step_waits (hq : s.seq = .idle) (hn : s.resetIn ≠ some 0) (hh : s.host = []) : step s = .next s.tick := by
  simp [step, State.resetDue, hn, hq, hh]

/-- An IDLE block with no reset due runs the operation of the next frame (R350). -/
theorem step_runs {i : Instr} (hq : s.seq = .idle) (hn : s.resetIn ≠ some 0) (hh : s.host = frame :: rest)
    (hd : decode frame = .ok i) : step s = exec i (s.accept frame rest) := by
  simp [step, State.resetDue, hn, hq, hh, hd]

/-- A frame that is no command ends with ILLEGAL_COMMAND (R345). -/
theorem step_illegal {e : DecodeError} (hq : s.seq = .idle) (hn : s.resetIn ≠ some 0) (hh : s.host = frame :: rest)
    (hd : decode frame = .error e) : step s = .next (illegalCommand (s.accept frame rest)) := by
  simp [step, State.resetDue, hn, hq, hh, hd]

end

/-- Settles O6: the state the operation runs in is the accepting one, and a step of waiting is one action. -/
theorem stepRunsTheDecodedCommand : Obligations.StepRunsTheDecodedCommand :=
  ⟨fun _ _ _ _ hq hn hh hd => ⟨step_runs hq hn hh hd, State.Quiet.tick_dev⟩,
    fun _ hq hn hh => ⟨step_waits hq hn hh, State.Quiet.tick_dev⟩⟩

/-! ### Illegal commands (R106, R345) -/

/-- No two rows have the same opcode. -/
theorem rowOf_of_mem {row : OpcodeRow} (h : row ∈ opcodeMap) : rowOf row.opcode = some row := by
  have hmap : ∀ row ∈ opcodeMap, rowOf row.opcode = some row := by decide
  exact hmap row h

/-- A frame with an unassigned opcode or of the wrong length is no command. -/
theorem decode_illegal {opc : Byte} {operands : List Byte}
    (h : Unassigned opc.toNat ∨
      ∃ row ∈ opcodeMap, row.opcode = opc.toNat ∧ operands.length ≠ row.format.operandBytes) :
    ∃ e, decode (opc :: operands) = .error e := by
  obtain h | ⟨row, hmem, hopcode, hl⟩ := h
  · exact ⟨_, decode_unassigned (rowOf_eq_none h) operands⟩
  · exact ⟨_, decode_wrongLength (hopcode ▸ rowOf_of_mem hmem) hl⟩

/-- Settles O5: the step is an acceptance and the end of a command, two actions of the block. -/
theorem illegalCommandHasNoOtherEffect : Obligations.IllegalCommandHasNoOtherEffect := by
  unfold Obligations.IllegalCommandHasNoOtherEffect
  intro s opc operands rest hq hn hh hframe
  obtain ⟨e, he⟩ := decode_illegal hframe
  refine ⟨?_, fun h => h.tick.tick_dev.trans h.tick_dev⟩
  have hend : (s.accept (opc :: operands) rest).begin.resetIn = none := by simp [hn]
  rw [step_illegal hq (by simp [hn]) hh he, illegalCommand, raise, respond_none _ hend]
  -- Both sides are one record once `seq` and `resetIn` of `s` are their values.
  cases s
  cases hq
  cases hn
  rfl

/-! ### The argument checks (R342) -/

theorem dateArgsOk_eq (y : Year) (mo d : Byte) :
    dateArgsOk y.toNat mo.toNat d.toNat = WellFormed.date y mo d := by
  simp [dateArgsOk, WellFormed.date, Bool.and_assoc]

theorem dtArgsOk_eq (y : Year) (mo d h mi s : Byte) :
    dtArgsOk (dtOf y mo d h mi s) = (Instr.setdt y mo d h mi s).wellFormed := by
  have hparts : dtArgsOk (dtOf y mo d h mi s) = (dateArgsOk y.toNat mo.toNat d.toNat &&
      decide (h.toNat ≤ 23 ∧ mi.toNat ≤ 59 ∧ s.toNat ≤ 59)) := rfl
  simp [hparts, dateArgsOk_eq, Instr.wellFormed, WellFormed.hour, WellFormed.sixty, Bool.and_assoc]

theorem a1ArgsOk_eq (s mi h dy f : Byte) : a1ArgsOk (a1Of s mi h dy f) = (Instr.seta1 s mi h dy f).wellFormed := by
  simp [a1ArgsOk_a1Of, Instr.wellFormed, WellFormed.hour, WellFormed.sixty, WellFormed.dayof, Bool.and_assoc]

theorem a2ArgsOk_eq (mi h dy f : Byte) : a2ArgsOk (a2Of mi h dy f) = (Instr.seta2 mi h dy f).wellFormed := by
  simp [a2ArgsOk_a2Of, Instr.wellFormed, WellFormed.hour, WellFormed.sixty, WellFormed.dayof, Bool.and_assoc]

theorem boolArg_eq_none_of_boolean {a : Byte} (h : WellFormed.boolean a = false) : boolArg a = none :=
  boolArg_eq_none (Nat.lt_of_not_le (of_decide_eq_false h))

theorem sqwModeOf_eq_none {n : Nat} (h : ¬n ≤ 5) : sqwModeOf n = none := by
  unfold sqwModeOf
  split
  case h_7 => rfl
  all_goals omega

theorem next_of_failed_check {ok : Bool} {t u : State} (h : ok = false) :
    (.next (if ok then t else u) : Host.Outcome State Fault Refusal) = .next u := by
  simp [h]

/-- The one thing an operation with an operand out of its domain does (R342). -/
theorem exec_illFormed {i : Instr} (h : i.wellFormed = false) (s : State) :
    exec i s = .next (raise .argRange s.begin) := by
  cases i with
  | hrenc | sqwrate => exact next_of_failed_check h
  | dow => exact next_of_failed_check ((dateArgsOk_eq ..).trans h)
  | dtenc | setdt => exact next_of_failed_check ((dtArgsOk_eq ..).trans h)
  | a1enc | seta1 => exact next_of_failed_check ((a1ArgsOk_eq ..).trans h)
  | a2enc | seta2 => exact next_of_failed_check ((a2ArgsOk_eq ..).trans h)
  | setrun a => rw [exec, execSetrun, boolArg_eq_none_of_boolean h]
  | set32k a => rw [exec, execSet32k, boolArg_eq_none_of_boolean h]
  | forceconv a => rw [exec, execForceconv, boolArg_eq_none_of_boolean h]
  | sqwmode a => rw [exec, execSqwmode, sqwModeOf_eq_none (of_decide_eq_false h)]
  | _ => cases h

/-! ### The acknowledged transactions of an operation -/

/-- The operation that started in `s` stands at `u`, its transactions `es` all acknowledged. -/
structure Acked (s : State) (es : List Event) (u : State) : Prop where
  events : u.events = s.events ++ es
  acks : ∀ e ∈ es, e.reply = .ack
  response : u.response = s.response
  resetIn : u.resetIn = none
  convPollMax : u.convPollMax = s.convPollMax
  phase : ∃ b, u.seq = .busy b ∧ b.phase = es.length
  first : (s.answerAt 0).reply = .ack ∨ es = [] ∧ u = s

namespace Acked

variable {s u : State} {es : List Event}

theorem start (hn : s.resetIn = none) : Acked s.begin [] s.begin :=
  ⟨by simp, nofun, rfl, hn, rfl, ⟨_, rfl, rfl⟩, .inr ⟨rfl, rfl⟩⟩

/-- What BUSY holds beside `phase` changes, after the first transaction. -/
theorem mapBusy {f : Busy → Busy} (h : Acked s es u) (hes : es ≠ []) (hf : ∀ b, (f b).phase = b.phase) :
    Acked s es (u.mapBusy f) where
  events := h.events
  acks := h.acks
  response := h.response
  resetIn := h.resetIn
  convPollMax := h.convPollMax
  phase := by
    obtain ⟨b, hb, hphase⟩ := h.phase
    exact ⟨f b, by simp [hb], (hf b).trans hphase⟩
  first := h.first.imp_right fun ⟨hnil, _⟩ => absurd hnil hes

/-- One more acknowledged transaction counts towards `phase` (R33). -/
theorem ack {e : Event} {d : Memory} (h : Acked s es u) (he : u.Replies .ack e) :
    Acked s (es ++ [e]) (u.issued e d).advance where
  events := by simp [h.events]
  acks := List.forall_mem_append.2 ⟨h.acks, List.forall_mem_singleton.2 he.event⟩
  response := h.response
  resetIn := by simp [h.resetIn]
  convPollMax := h.convPollMax
  phase := by
    obtain ⟨b, hb, hphase⟩ := h.phase
    exact ⟨_, by simp [hb]; rfl, by simp [hphase]⟩
  first := .inl (h.first.elim id fun ⟨_, hu⟩ => hu ▸ he.answer)

end Acked

/-! ### How an operation comes to rest -/

/-- The operation that started in `s` comes to rest after acknowledged transactions `es`: with a response `r` for which
`A r es` holds, with BUS_ERROR at a transaction that is not acknowledged, or in one that never returns. -/
inductive Rests (A : Response → List Event → Prop) (s : State) : State → Prop
  | respond {r es u} : Acked s es u → A r es → Rests A s (respond r u)
  | nack {e d es u} : Acked s es u → u.Replies .nack e → Rests A s (raise .busError (u.issued e d))
  | silent {e d es u} : Acked s es u → u.Replies .silent e → Rests A s (u.issued e d)

theorem dataBytes_one (s : State) (addr : Nat) : s.dataBytes addr 1 = [s.dataAt addr 0] := by
  simp [State.dataBytes, List.range_succ]

/-- `phase` and `buf` are apart. -/
theorem advance_fill (s : State) (v : List Byte) : (s.fill v).advance = s.advance.fill v := by
  simp only [State.advance, State.fill, State.mapBusy_mapBusy]
  rfl

namespace Rests

variable {A : Response → List Event → Prop} {s u : State} {es : List Event}

theorem memRead {addr n : Nat} {k : (Nat → Byte) → State → State} (h : Acked s es u)
    (hk : ∀ v, Acked s (es ++ [.read addr n .ack (u.dataBytes addr n)]) v → Rests A s (k (u.dataAt addr) v)) :
    Rests A s (memRead addr n u k) := by
  refine memRead_cases addr n u k (fun h0 => by simp [h.resetIn] at h0) (fun _ ha => hk _ ?_)
    (fun _ ha => .nack h ⟨ha, rfl⟩) (fun _ ha => .silent h ⟨ha, rfl⟩)
  rw [advance_fill]
  exact (h.ack ⟨ha, rfl⟩).mapBusy (by simp) fun _ => rfl

theorem memWrite {addr : Nat} {v : List Byte} {k : State → State} (h : Acked s es u)
    (hk : ∀ w, Acked s (es ++ [.write addr v .ack]) w → Rests A s (k w)) : Rests A s (memWrite addr v u k) :=
  memWrite_cases addr v u k (fun h0 => by simp [h.resetIn] at h0) (fun _ ha => hk _ (h.ack ⟨ha, rfl⟩))
    (fun _ ha => .nack h ⟨ha, rfl⟩) (fun _ ha => .silent h ⟨ha, rfl⟩)

theorem rmw {addr : Nat} {clr set : Byte} {k : Byte → State → State} (h : Acked s es u)
    (hk : ∀ b v, Acked s (es ++ [.read addr 1 .ack [b], .write addr [rmwByte b clr set] .ack]) v → Rests A s (k b v)) :
    Rests A s (rmw addr clr set u k) := by
  refine memRead h fun v hv => memWrite (hv.mapBusy (by simp) fun _ => rfl) fun w hw => hk _ w ?_
  simpa [dataBytes_one] using hw

/-- An argument check that holds. -/
theorem guard {ok : Bool} {t v : State} (hok : ok = true) (h : Rests A s t) : Rests A s (if ok then t else v) := by
  rwa [if_pos hok]

/-- An operation at rest in IDLE has its response, with all of its transactions acknowledged or with BUS_ERROR at the
last. -/
theorem response {t : State} {r : Response} (h : Rests A s t) (ht : t.seq = .idle) (hr : t.response = some r) :
    ∃ es, (∀ e ∈ es, e.reply = .ack) ∧
      (t.events = s.events ++ es ∧ A r es ∨
        r = { status := .busError, results := [] } ∧
          ∃ e, e.reply = .nack ∧ t.events = s.events ++ (es ++ [e])) := by
  cases h with
  | @respond r' es u hu hA =>
    rw [respond_response _ hu.resetIn] at hr
    cases hr
    exact ⟨es, hu.acks, .inl ⟨by simp [hu.events], hA⟩⟩
  | @nack e d es u hu he =>
    rw [raise, respond_response _ (by simp [hu.resetIn])] at hr
    cases hr
    exact ⟨es, hu.acks, .inr ⟨rfl, e, he.event, by simp [raise, hu.events]⟩⟩
  | silent hu =>
    obtain ⟨b, hb, -⟩ := hu.phase
    simp [hb] at ht

end Rests

/-! ### The response an operation comes to by itself -/

/-- Reads of the control register that all found CONV = 1 (R316). -/
def PollsConverting (polls : List Event) : Prop :=
  ∀ e ∈ polls, ∃ d : Byte, e = .read 0x0E 1 .ack [d] ∧ d.toNat / 32 % 2 = 1

/-- The response with which operation `i` may end after the acknowledged transactions `es`: ARG_RANGE for operands out of
their domains (R342), its results, before which a device operation makes a transaction, or CONV_TIMEOUT of a blocking
FORCECONV after all of its polls (R344). -/
inductive Earned (max : Nat) : Instr → Response → List Event → Prop
  | argRange {i} : i.wellFormed = false → Earned max i { status := .argRange, results := [] } []
  | results {i r es} : r.status.delivers = true → (isPure i = false → es ≠ []) → Earned max i r es
  | timeout {b w polls} : w.toNat / 32 % 2 = 1 → polls.length = max → PollsConverting polls →
    Earned max (.forceconv 1) { status := .convTimeout, results := [] }
      (.read 0x0E 1 .ack [b] :: .write 0x0E [w] .ack :: polls)

namespace Rests

variable {s u : State} {es : List Event} {i : Instr} {max : Nat} {results : List Byte}

theorem finish (h : Acked s es u) (hes : isPure i = false → es ≠ []) :
    Rests (Earned max i) s (finish results u) :=
  .respond h (.results rfl hes)

theorem finishChecked {ok : Bool} (h : Acked s es u) (hes : isPure i = false → es ≠ []) :
    Rests (Earned max i) s (finishChecked ok results u) := by
  rw [finishChecked_eq_respond]
  exact .respond h (.results (by cases ok <;> rfl) hes)

end Rests

theorem conv_iff (b : Byte) : conv b = true ↔ b.toNat / 32 % 2 = 1 := by
  simp [conv, bit_eq]

/-- The poll of a blocking FORCECONV with `n` reads left, after polls that all found CONV = 1 (R316). -/
theorem Rests.poll {s u : State} {max n : Nat} {b w : Byte} {polls : List Event} (hw : w.toNat / 32 % 2 = 1)
    (h : Acked s (.read 0x0E 1 .ack [b] :: .write 0x0E [w] .ack :: polls) u) (hp : PollsConverting polls)
    (hlen : polls.length + n = max) : Rests (Earned max (.forceconv 1)) s (pollConv n u) := by
  induction n generalizing polls u with
  | zero => exact .respond h (.timeout hw hlen hp)
  | succ n ih =>
    refine .memRead h fun v hv => ?_
    have hcounted : Acked s _ v.countPoll := hv.mapBusy (by simp) fun _ => rfl
    rw [dataBytes_one, List.cons_append, List.cons_append] at hcounted
    split
    next hc =>
      refine ih hcounted ?_ (by simp; omega)
      exact List.forall_mem_append.2 ⟨hp, List.forall_mem_singleton.2 ⟨_, rfl, (conv_iff _).1 hc⟩⟩
    next => exact .finish hcounted (by simp)

/-- FORCECONV with an operand in its domain. -/
theorem exec_forceconv_rests {a : Byte} {s : State} (ha : WellFormed.boolean a = true) (hn : s.resetIn = none) :
    ∃ t, exec (.forceconv a) s = .next t ∧ Rests (Earned s.convPollMax (.forceconv a)) s.begin t := by
  refine ⟨_, exec_forceconv (of_decide_eq_true ha) s, .rmw (.start hn) fun b v hv => ?_⟩
  split
  next h1 =>
    obtain rfl : a = 1 := BitVec.eq_of_toNat_eq h1
    have hw : (rmwByte b 0x00#8 maskCONV).toNat / 32 % 2 = 1 := by
      rw [← conv_iff, rmwByte_conv]; exact conv_set b
    rw [hv.convPollMax]
    exact .poll hw (hv.mapBusy (by simp) fun _ => rfl) nofun (Nat.zero_add _)
  next => exact .finish hv (by simp)

/-- While no reset is asserted every operation comes to rest with a response it has earned, with BUS_ERROR, or in a
transaction that never returns. -/
theorem exec_rests (i : Instr) {s : State} (hn : s.resetIn = none) :
    ∃ t, exec i s = .next t ∧ Rests (Earned s.convPollMax i) s.begin t := by
  have hstart := Acked.start hn
  cases hw : i.wellFormed with
  | false => exact ⟨_, exec_illFormed hw s, .respond hstart (.argRange hw)⟩
  | true =>
    cases i with
    | bcdenc | tmpdec => exact ⟨_, rfl, .finish hstart nofun⟩
    | bcddec | hrdec | dtdec | a1dec | a2dec => exact ⟨_, rfl, .finishChecked hstart nofun⟩
    | hrenc => exact ⟨_, rfl, .guard hw (.finish hstart nofun)⟩
    | dow => exact ⟨_, rfl, .guard ((dateArgsOk_eq ..).trans hw) (.finish hstart nofun)⟩
    | dtenc => exact ⟨_, rfl, .guard ((dtArgsOk_eq ..).trans hw) (.finish hstart nofun)⟩
    | a1enc => exact ⟨_, rfl, .guard ((a1ArgsOk_eq ..).trans hw) (.finish hstart nofun)⟩
    | a2enc => exact ⟨_, rfl, .guard ((a2ArgsOk_eq ..).trans hw) (.finish hstart nofun)⟩
    | gettmp | getvalid | getrun | getage => exact ⟨_, rfl, .memRead hstart fun _ h => .finish h (by simp)⟩
    | getdt | geta1 | geta2 => exact ⟨_, rfl, .memRead hstart fun _ h => .finishChecked h (by simp)⟩
    | setage => exact ⟨_, rfl, .memWrite hstart fun _ h => .finish h (by simp)⟩
    | seta1 =>
      exact ⟨_, rfl, .guard ((a1ArgsOk_eq ..).trans hw) (.memWrite hstart fun _ h => .finish h (by simp))⟩
    | seta2 =>
      exact ⟨_, rfl, .guard ((a2ArgsOk_eq ..).trans hw) (.memWrite hstart fun _ h => .finish h (by simp))⟩
    | setdt =>
      exact ⟨_, rfl, .guard ((dtArgsOk_eq ..).trans hw)
        (.rmw hstart fun _ _ h => .memWrite h fun _ h => .finish h (by simp))⟩
    | latchaf => exact ⟨_, rfl, .rmw hstart fun _ _ h => .finish h (by simp)⟩
    | setrun => exact ⟨_, exec_setrun (of_decide_eq_true hw) s, .rmw hstart fun _ _ h => .finish h (by simp)⟩
    | set32k => exact ⟨_, exec_set32k (of_decide_eq_true hw) s, .rmw hstart fun _ _ h => .finish h (by simp)⟩
    | sqwrate => exact ⟨_, exec_sqwrate (of_decide_eq_true hw) s, .rmw hstart fun _ _ h => .finish h (by simp)⟩
    | sqwmode =>
      obtain ⟨m, hm⟩ := sqwModeOf_of_le (of_decide_eq_true hw)
      refine ⟨_, by rw [exec, execSqwmode, hm], .rmw hstart fun _ _ h => .finish h (by simp)⟩
    | forceconv => exact exec_forceconv_rests hw hn

/-- `exec_rests` of a run that is given. -/
theorem Rests.of_exec {i : Instr} {s t : State} (hn : s.resetIn = none) (h : exec i s = .next t) :
    Rests (Earned s.convPollMax i) s.begin t := by
  obtain ⟨u, hu, hr⟩ := exec_rests i hn
  cases hu.symm.trans h
  exact hr

/-! ### The statuses of an operation (R342, R343, R344) -/

/-- Settles O45: an operation out of range is one response, and no end of one in range is ARG_RANGE. -/
theorem argRangeExactlyWhenIllFormed : Obligations.ArgRangeExactlyWhenIllFormed := by
  unfold Obligations.ArgRangeExactlyWhenIllFormed
  refine fun i s hn => ⟨fun hw => .of_respond hn (exec_illFormed hw s), fun hw t r ht hidle hr hst => ?_⟩
  obtain ⟨es, -, ⟨-, hearned⟩ | ⟨rfl, -⟩⟩ := (Rests.of_exec hn ht).response hidle hr
  · cases hearned with
    | argRange hill => simp [hw] at hill
    | results hd => simp [hst, Status.delivers] at hd
    | timeout => cases hst
  · cases hst

/-- A pure operation never ends with BUS_ERROR. -/
theorem isPure_eq_false_of_busError {i : Instr} {s t : State} {r : Response} (hn : s.resetIn = none)
    (ht : exec i s = .next t) (hr : t.response = some r) (hst : r.status = .busError) : isPure i = false := by
  by_contra hpure
  obtain ⟨st, results, ⟨u, hu, -, hresponse, -⟩, hbus, -⟩ :=
    pureOperationsTouchNoRegister i s (by simpa using hpure) hn
  cases ht.symm.trans hu
  cases hr.symm.trans hresponse
  exact hbus hst

/-- Settles O46: an operation at rest with another status has all its transactions acknowledged, and a pure one none. -/
theorem busErrorExactlyAtTheFailedTransaction : Obligations.BusErrorExactlyAtTheFailedTransaction := by
  unfold Obligations.BusErrorExactlyAtTheFailedTransaction
  intro i s t r hn ht hidle hr
  obtain ⟨es, hacks, ⟨hevents, hearned⟩ | ⟨rfl, e, hnack, hevents⟩⟩ := (Rests.of_exec hn ht).response hidle hr
  · refine ⟨es, hevents, fun _ => hacks, fun hst => ?_⟩
    cases hearned with
    | results hd => simp [hst, Status.delivers] at hd
    | argRange | timeout => cases hst
  · have hdevice := isPure_eq_false_of_busError hn ht hr rfl
    exact ⟨es ++ [e], hevents, fun h => absurd rfl h, fun _ => ⟨hdevice, rfl, es, e, rfl, hnack, hacks⟩⟩

/-- Settles O48: CONV_TIMEOUT is earned only by all the polls of a blocking FORCECONV. -/
theorem convTimeoutOnlyAfterEveryPoll : Obligations.ConvTimeoutOnlyAfterEveryPoll := by
  unfold Obligations.ConvTimeoutOnlyAfterEveryPoll
  intro i s t r hn ht hidle hr hst
  obtain ⟨es, -, ⟨hevents, hearned⟩ | ⟨rfl, -⟩⟩ := (Rests.of_exec hn ht).response hidle hr
  · cases hearned with
    | timeout hw hlen hpolls => exact ⟨rfl, rfl, _, _, _, hevents, hw, hlen, hpolls⟩
    | results hd => simp [hst, Status.delivers] at hd
    | argRange => cases hst
  · cases hst

/-! ### A transaction that never returns (R358) -/

/-- A device operation in range whose first transaction does not return stands where it started. -/
theorem Rests.silent_first {i : Instr} {s t : State} {max : Nat} (h : Rests (Earned max i) s t) (hp : isPure i = false)
    (hw : i.wellFormed = true) (h0 : (s.answerAt 0).reply = .silent) :
    ∃ e d, e.reply = .silent ∧ t = s.issued e d := by
  have hnone {es u} (hu : Acked s es u) : es = [] ∧ u = s := hu.first.resolve_left (by simp [h0])
  cases h with
  | respond hu hearned =>
    obtain ⟨rfl, -⟩ := hnone hu
    cases hearned with
    | argRange hill => simp [hw] at hill
    | results _ hes => exact absurd rfl (hes hp)
  | nack hu he =>
    obtain ⟨-, rfl⟩ := hnone hu
    cases h0.symm.trans he.answer
  | @silent e d _ _ hu he =>
    obtain ⟨-, rfl⟩ := hnone hu
    exact ⟨e, d, he.event, rfl⟩

/-- An operation is left BUSY only by a transaction that never returns, which is then its last; the ones before it are
acknowledged, and `phase` counts them (R33, R358). -/
theorem Rests.busy_of_silent {A : Response → List Event → Prop} {s t : State} (h : Rests A s t) :
    ∃ issued, t.events = s.events ++ issued ∧
      ((∃ e ∈ issued, e.reply = .silent) → ∃ b, t.seq = .busy b) ∧
      (∀ b, t.seq = .busy b → t.response = s.response ∧ t.resetIn = none ∧
        ∃ before last, issued = before ++ [last] ∧ last.reply = .silent ∧ (∀ e ∈ before, e.reply = .ack) ∧
          b.phase = before.length) := by
  cases h with
  | @respond r es u hu =>
    refine ⟨es, by simp [hu.events], fun ⟨e, he, hsilent⟩ => ?_, fun b hb => ?_⟩
    · cases hsilent.symm.trans (hu.acks e he)
    · simp [respond_none r hu.resetIn] at hb
  | @nack e d es u hu he =>
    refine ⟨es ++ [e], by simp [raise, hu.events], fun ⟨e', hmem, hsilent⟩ => ?_, fun b hb => ?_⟩
    · obtain hmem | hmem := List.mem_append.1 hmem
      · cases hsilent.symm.trans (hu.acks e' hmem)
      · obtain rfl := List.mem_singleton.1 hmem
        cases hsilent.symm.trans he.event
    · rw [raise, respond_none _ (by simp [hu.resetIn])] at hb
      cases hb
  | @silent e d es u hu he =>
    obtain ⟨b, hb, hphase⟩ := hu.phase
    refine ⟨es ++ [e], by simp [hu.events], fun _ => ⟨b, hb⟩, fun b' hb' => ?_⟩
    cases hb.symm.trans hb'
    exact ⟨hu.response, by simp [hu.resetIn], es, e, rfl, he.event, hu.acks, hphase⟩

/-- Settles O58: only a transaction that never returns leaves the block BUSY, and a step of it then is one action. -/
theorem silentTransactionLeavesTheBlockBusy : Obligations.SilentTransactionLeavesTheBlockBusy := by
  unfold Obligations.SilentTransactionLeavesTheBlockBusy
  refine ⟨fun i s hp hw hn h0 => ?_, fun i s t hn ht => (Rests.of_exec hn ht).busy_of_silent,
    fun t b hq hn => ⟨step_busy hq hn, State.Quiet.tick_dev⟩⟩
  obtain ⟨t, ht, hrests⟩ := exec_rests i hn
  obtain ⟨e, d, he, rfl⟩ := hrests.silent_first hp hw h0
  exact ⟨_, e, ht, rfl, rfl, rfl, he⟩

end Sys2Proof.Machine
end

section
/-! PROOFS. The family 70_reset_and_hazards.md: what a reset makes of a run is said once, beside the same run with no reset
(`Timed`, `exec_timed`); a setter of the control register keeps CONV because its read-modify-write never clears that bit. -/

namespace Sys2Proof.Machine

/-! ### CONV is written back (R387) -/

/-- A read-modify-write that does not clear CONV keeps it. -/
theorem conv_rmwByte {t clr : Byte} (set : Byte) (hclr : conv clr = false) (ht : conv t = true) :
    conv (rmwByte t clr set) = true := by
  simp only [conv, bit] at hclr ht
  simp [-BitVec.getLsbD_eq_getElem, conv, bit, rmwByte, hclr, ht]

/-- A read-modify-write that keeps to bits other than CONV does not clear CONV. -/
theorem conv_eq_false_of_owned {clr set mask : Byte} (h : (clr ||| set) &&& ~~~mask = 0) (hmask : conv mask = false) :
    conv clr = false := by
  simp only [conv, bit] at hmask ⊢
  have hbit : clr.getLsbD 5 = false ∧ set.getLsbD 5 = false := by
    simpa [-BitVec.getLsbD_eq_getElem, hmask] using congrArg (·.getLsbD 5) h
  exact hbit.1

/-- The second transaction of a read-modify-write stores its byte, made from the byte read. -/
theorem rmw_written {addr : Nat} {clr set b w : Byte} {s : State} {k : Byte → State → State} {r : Reply}
    {later : List Event} (hk : ∀ b u, ∃ after, (k b u).events = u.events ++ after)
    (h : (rmw addr clr set s k).events = s.events ++ .read addr 1 .ack [b] :: .write addr [w] r :: later) :
    w = rmwByte b clr set := by
  revert h
  refine rmw_cases (P := fun t => t.events = s.events ++ .read addr 1 .ack [b] :: .write addr [w] r :: later →
    w = rmwByte b clr set) addr clr set s k ?resetRead ?nackRead ?silentRead ?resetWrite ?ack ?nackWrite ?silentWrite
  case resetRead | nackRead | silentRead | resetWrite => simp [raise, rmwRead_events]
  case nackWrite | silentWrite =>
    intro _ _ h
    obtain ⟨rfl, ⟨rfl, -⟩, -⟩ : s.dataAt addr 0 = b ∧ (rmwByte (s.dataAt addr 0) clr set = w ∧ _) ∧ _ := by
      simpa [raise, rmwRead_events] using h
    rfl
  case ack =>
    intro _ _ h
    obtain ⟨after, hafter⟩ := hk (s.dataAt addr 0) (rmwDone addr clr set s)
    rw [rmwDone_events] at hafter
    obtain ⟨rfl, ⟨rfl, -⟩, -⟩ : b = s.dataAt addr 0 ∧ (w = rmwByte (s.dataAt addr 0) clr set ∧ _) ∧ _ := by
      simpa using h.symm.trans hafter
    rfl

/-- The operations that read and then write the control register are its setters (R75, R281). -/
theorem ownsControl_of_prefix {max : Nat} {i : Instr}
    (h : [.read 0x0E 1, .write 0x0E 1] <+: transactionsOf max i) : ∃ mask, ownedBits i = some (0x0E, mask) := by
  cases i
  case setrun | sqwmode | sqwrate | forceconv => exact ⟨_, rfl⟩
  all_goals exact absurd h (by simp [transactionsOf, List.cons_prefix_cons])

/-- A setter of the control register is a read-modify-write that does not clear CONV, after which it only adds to the
history. -/
theorem exec_keepsConv {i : Instr} {mask : Byte} (hw : i.wellFormed = true) (ho : ownedBits i = some (0x0E, mask))
    (s : State) : ∃ clr set k, exec i s = .next (rmw 0x0E clr set s.begin k) ∧ conv clr = false ∧
      ∀ b u, ∃ after, (k b u).events = u.events ++ after := by
  cases hm : conv mask with
  | false =>
    obtain ⟨clr, set, k, hexec, howned, hk⟩ := exec_ownsBits hw ho s
    exact ⟨clr, set, k, hexec, conv_eq_false_of_owned howned hm, hk⟩
  | true =>
    cases i <;> cases ho
    case forceconv.refl a =>
      obtain ⟨wait, hwait⟩ := boolArg_of_boolean hw
      refine ⟨0x00#8, maskCONV, _, ?_, rfl, fun _ _ => (Runs.afterRmw_forceconv hwait rfl).events_append⟩
      rw [exec, execForceconv, hwait]
    all_goals cases hm

/-- Settles O44: the operation is a setter of the control register, and its read-modify-write does not clear CONV. -/
theorem convIsWrittenBack : Obligations.ConvIsWrittenBack := by
  unfold Obligations.ConvIsWrittenBack
  intro i s t b r w later ht hevents hb
  cases hw : i.wellFormed with
  | false =>
    cases (exec_illFormed hw s).symm.trans ht
    simp [raise] at hevents
  | true =>
    obtain ⟨issued, hissued, hfirst⟩ := (Runs.of_exec ht).follows
    obtain rfl := List.append_cancel_left (hevents.symm.trans hissued)
    obtain ⟨mask, ho⟩ := ownsControl_of_prefix ((List.prefix_append _ _).trans hfirst)
    obtain ⟨clr, set, k, hexec, hclr, hk⟩ := exec_keepsConv hw ho s
    cases hexec.symm.trans ht
    rw [rmw_written hk hevents, ← conv_iff]
    exact conv_rmwByte set hclr ((conv_iff b).2 hb)

/-! ### A transaction, by the reply to it -/

/-- What is done after a transaction, by the reply to it: the operation goes on with `k`, ends with BUS_ERROR (R343), or stays
in it (R358). -/
def afterReply (k : State → State) : Reply → State → State
  | .ack, u => k u
  | .nack, u => raise .busError u
  | .silent, u => u

/-- A read that is issued now, as it comes out. -/
def State.readEvent (s : State) (addr m : Nat) : Event :=
  .read addr m (s.answerAt 0).reply (if (s.answerAt 0).reply = .ack then s.dataBytes addr m else [])

/-- A write that is issued now, as it comes out. -/
def State.writeEvent (s : State) (addr : Nat) (v : List Byte) : Event := .write addr v (s.answerAt 0).reply

/-- A read with no reset due is issued, and its reply says what is done then. -/
theorem memRead_eq_afterReply (addr m : Nat) {s : State} (k : (Nat → Byte) → State → State) (hn : s.resetIn ≠ some 0) :
    memRead addr m s k =
      afterReply (fun u => k (s.dataAt addr) (u.fill (s.dataBytes addr m)).advance) (s.answerAt 0).reply
        (s.issued (s.readEvent addr m) (s.devAfter (s.readEvent addr m))) := by
  unfold State.readEvent
  refine memRead_cases (P := fun t => t = _) addr m s k (fun h0 => absurd h0 hn) ?ack ?nack ?silent
  all_goals
    intro _ ha
    rw [ha]
    rfl

/-- A write with no reset due is issued, and its reply says what is done then. -/
theorem memWrite_eq_afterReply (addr : Nat) (v : List Byte) {s : State} (k : State → State) (hn : s.resetIn ≠ some 0) :
    memWrite addr v s k = afterReply (fun u => k u.advance) (s.answerAt 0).reply
      (s.issued (s.writeEvent addr v) (s.devAfter (s.writeEvent addr v))) := by
  unfold State.writeEvent
  refine memWrite_cases (P := fun t => t = _) addr v s k (fun h0 => absurd h0 hn) ?ack ?nack ?silent
  all_goals
    intro _ ha
    simp only [State.devAfter, State.landing, ha]
    rfl

/-! ### A reset that comes while an operation runs (R380, R382) -/

/-- The state with a reset that comes after `n` more actions. -/
def State.resetAfter (n : Nat) (s : State) : State := { s with resetIn := some n }

@[simp] theorem State.resetAfter_resetIn (n : Nat) (s : State) : (s.resetAfter n).resetIn = some n := rfl

/-- A reset has abandoned at `t` what stood at `s`, after the transactions `before` and with no response. -/
structure Abandoned (s : State) (before : List Event) (t : State) : Prop where
  seq : t.seq = .idle
  response : t.response = none
  command : t.command = []
  resetIn : t.resetIn = none
  host : t.host = s.host
  events : t.events = s.events ++ before
  dev : s.Quiet → (∀ e ∈ before, ∃ addr m r d, e = .read addr m r d) → t.dev = s.dev

theorem Abandoned.now (s : State) : Abandoned s [] s.blockReset :=
  ⟨rfl, rfl, rfl, rfl, rfl, by simp, fun _ _ => rfl⟩

/-- What a reset leaves depends on the device, the history and the coming frames. -/
theorem Abandoned.congr {s s' t : State} {before : List Event} (h : Abandoned s before t) (hhost : s.host = s'.host)
    (hevents : s.events = s'.events) (hdev : s.dev = s'.dev) (htransport : s.transport = s'.transport)
    (hchip : s.chip = s'.chip) : Abandoned s' before t where
  seq := h.seq
  response := h.response
  command := h.command
  resetIn := h.resetIn
  host := h.host.trans hhost
  events := by rw [h.events, hevents]
  dev hq hreads := hdev ▸ h.dev (hq.mono htransport fun _ hc => hchip ▸ hc) hreads

/-- What is abandoned after a transaction has issued it; a read leaves the registers as they are (R70). -/
theorem Abandoned.after {s t : State} {e : Event} {d : Memory} {before : List Event}
    (h : Abandoned (s.issued e d) before t) (hd : (∃ addr m r v, e = .read addr m r v) → d = s.dev) :
    Abandoned s (e :: before) t where
  seq := h.seq
  response := h.response
  command := h.command
  resetIn := h.resetIn
  host := h.host
  events := by simp [h.events]
  dev hq hreads := by
    obtain ⟨he, hbefore⟩ := List.forall_mem_cons.1 hreads
    rw [h.dev (hq.issued e d) hbefore, hq.issued_dev, hd he]

/-- The actions of a run that issues `issued` and comes to rest at `u`: its transactions, and its response if it has one
(log 9). -/
def actions (issued : List Event) (u : State) : Nat := issued.length + if u.seq = .idle then 1 else 0

/-- A transaction is one action. -/
theorem actions_cons (e : Event) (issued : List Event) (u : State) :
    actions (e :: issued) u = actions issued u + 1 := Nat.add_right_comm _ _ _

theorem lt_actions_iff {n : Nat} {issued : List Event} {u : State} :
    n < actions issued u ↔ n < issued.length ∨ n = issued.length ∧ u.seq = .idle := by
  unfold actions
  split
  next h => simp only [h, and_true]; omega
  next h => simp [h]

/-- What comes to rest at `u` from `s` with no reset comes to rest at `t` with one after `n` actions: abandoned where the
reset finds it, or at `u` where it is over before the reset. -/
def Timed (n : Nat) (s u t : State) : Prop :=
  ∃ issued, u.events = s.events ++ issued ∧
    (n < actions issued u → Abandoned s (issued.take n) t) ∧
    (actions issued u ≤ n → t = u.resetAfter (n - actions issued u))

/-- The block runs an operation, and no reset is coming. -/
structure State.Running (s : State) : Prop where
  resetIn : s.resetIn = none
  seq : s.seq ≠ .idle

theorem State.Running.begin {s : State} (hn : s.resetIn = none) : s.begin.Running := ⟨hn, by simp⟩

theorem State.Running.issued {s : State} (h : s.Running) (e : Event) (d : Memory) : (s.issued e d).Running :=
  ⟨by simp [h.resetIn], h.seq⟩

theorem State.Running.mapBusy {s : State} (h : s.Running) (f : Busy → Busy) : (s.mapBusy f).Running :=
  ⟨h.resetIn, mt Sequencer.map_eq_idle.1 h.seq⟩

namespace Timed

variable {n : Nat} {s u t : State}

theorem respond (r : Response) (hs : s.Running) :
    Timed n s (respond r s) (respond r (s.resetAfter n)) := by
  have hu : Machine.respond r s = { s with response := some r, seq := .idle }.tick := respond_none r hs.resetIn
  have hactions : actions [] (Machine.respond r s) = 1 := by rw [hu]; rfl
  refine ⟨[], by simp, ?_⟩
  rw [hactions]
  cases n with
  | zero => exact ⟨fun _ => .now s, fun h => by omega⟩
  | succ n => exact ⟨fun h => by omega, fun _ => by rw [hu]; rfl⟩

/-- A transaction that never returns leaves the block as it is, whatever reset is to come (R358). -/
theorem stuck (hs : s.Running) : Timed n s s (s.resetAfter n) := by
  have hactions : actions [] s = 0 := by simp [actions, hs.seq]
  refine ⟨[], by simp, ?_⟩
  rw [hactions]
  exact ⟨fun h => by omega, fun _ => rfl⟩

/-- What BUSY holds is no part of what a reset leaves. -/
theorem of_mapBusy {f : Busy → Busy} (h : Timed n (s.mapBusy f) u t) : Timed n s u t := by
  obtain ⟨issued, hevents, habandoned, hover⟩ := h
  exact ⟨issued, hevents, fun hlt => (habandoned hlt).congr rfl rfl rfl rfl rfl, hover⟩

/-- A transaction: a reset that is due comes before it, and any other has one action fewer to come after it. -/
theorem issue {e : Event} {later : Nat → State} (h : ∀ n, Timed n (s.issued e (s.devAfter e)) u (later n))
    (hdue : n = 0 → t = s.blockReset) (hlater : ∀ m, n = m + 1 → t = later m) : Timed n s u t := by
  cases n with
  | zero =>
    obtain ⟨issued, hevents, -⟩ := h 0
    refine ⟨e :: issued, by simpa using hevents, fun _ => hdue rfl ▸ .now s, fun hover => ?_⟩
    simp [actions_cons] at hover
  | succ n =>
    obtain ⟨issued, hevents, habandoned, hover⟩ := h n
    refine ⟨e :: issued, by simpa using hevents, ?_⟩
    rw [actions_cons, hlater n rfl, Nat.add_lt_add_iff_right, Nat.add_le_add_iff_right, Nat.add_sub_add_right]
    exact ⟨fun hlt => (habandoned hlt).after fun ⟨_, _, _, _, he⟩ => he ▸ rfl, hover⟩

theorem afterReply {k : State → State} (r : Reply) (hs : s.Running) (hk : Timed n s (k s) (k (s.resetAfter n))) :
    Timed n s (afterReply k r s) (afterReply k r (s.resetAfter n)) := by
  cases r with
  | ack => exact hk
  | nack => exact respond _ hs
  | silent => exact stuck hs

theorem memRead {addr m : Nat} {k : (Nat → Byte) → State → State} (hs : s.Running)
    (hk : ∀ b v n, v.Running → Timed n v (k b v) (k b (v.resetAfter n))) :
    Timed n s (memRead addr m s k) (memRead addr m (s.resetAfter n) k) := by
  rw [memRead_eq_afterReply addr m k (by simp [hs.resetIn])]
  have hissued := hs.issued (s.readEvent addr m) (s.devAfter (s.readEvent addr m))
  refine issue (fun n => .afterReply _ hissued ?_) (fun h0 => ?_) (fun m h => ?_)
  · exact of_mapBusy (of_mapBusy (hk _ _ n ((hissued.mapBusy _).mapBusy _)))
  · exact memRead_reset addr m k (by simp [h0])
  · subst h
    exact memRead_eq_afterReply addr _ k (by simp)

theorem memWrite {addr : Nat} {v : List Byte} {k : State → State} (hs : s.Running)
    (hk : ∀ w n, w.Running → Timed n w (k w) (k (w.resetAfter n))) :
    Timed n s (memWrite addr v s k) (memWrite addr v (s.resetAfter n) k) := by
  rw [memWrite_eq_afterReply addr v k (by simp [hs.resetIn])]
  have hissued := hs.issued (s.writeEvent addr v) (s.devAfter (s.writeEvent addr v))
  refine issue (fun n => .afterReply _ hissued ?_) (fun h0 => ?_) (fun m h => ?_)
  · exact of_mapBusy (hk _ n (hissued.mapBusy _))
  · exact memWrite_reset addr v k (by simp [h0])
  · subst h
    exact memWrite_eq_afterReply addr v k (by simp)

theorem rmw {addr : Nat} {clr set : Byte} {k : Byte → State → State} (hs : s.Running)
    (hk : ∀ b v n, v.Running → Timed n v (k b v) (k b (v.resetAfter n))) :
    Timed n s (rmw addr clr set s k) (rmw addr clr set (s.resetAfter n) k) :=
  .memRead hs fun b _ _ hv => of_mapBusy (.memWrite (hv.mapBusy _) fun w n => hk (b 0) w n)

theorem finishChecked {ok : Bool} {results : List Byte} (hs : s.Running) :
    Timed n s (finishChecked ok results s) (finishChecked ok results (s.resetAfter n)) := by
  simp only [finishChecked_eq_respond]
  exact respond _ hs

/-- An argument check: what is done when it holds, or ARG_RANGE (R342). -/
theorem guard {ok : Bool} (hs : s.Running) (h : Timed n s u t) :
    Timed n s (if ok then u else raise .argRange s) (if ok then t else raise .argRange (s.resetAfter n)) := by
  cases ok with
  | true => exact h
  | false => exact respond _ hs

/-- The poll of FORCECONV with `left` reads left (R316). -/
theorem poll (left : Nat) (hs : s.Running) : Timed n s (pollConv left s) (pollConv left (s.resetAfter n)) := by
  induction left generalizing s n with
  | zero => exact respond _ hs
  | succ left ih =>
    refine .memRead hs fun b v n hv => ?_
    cases conv (b 0) with
    | true => exact of_mapBusy (ih (hv.mapBusy _))
    | false => exact of_mapBusy (respond _ (hv.mapBusy _))

end Timed

/-- Every operation is abandoned where a reset finds it, or is over before it. -/
theorem exec_timed (i : Instr) {s : State} (n : Nat) (hn : s.resetIn = none) :
    ∃ u t, exec i s = .next u ∧ exec i (s.resetAfter n) = .next t ∧ Timed n s.begin u t := by
  have hs := State.Running.begin hn
  cases i with
  | bcdenc | tmpdec => exact ⟨_, _, rfl, rfl, .respond _ hs⟩
  | bcddec | hrdec | dtdec | a1dec | a2dec => exact ⟨_, _, rfl, rfl, .finishChecked hs⟩
  | hrenc | dow | dtenc | a1enc | a2enc => exact ⟨_, _, rfl, rfl, .guard hs (.respond _ hs)⟩
  | gettmp | getvalid | getrun | getage => exact ⟨_, _, rfl, rfl, .memRead hs fun _ _ _ => .respond _⟩
  | getdt | geta1 | geta2 => exact ⟨_, _, rfl, rfl, .memRead hs fun _ _ _ => .finishChecked⟩
  | setage => exact ⟨_, _, rfl, rfl, .memWrite hs fun _ _ => .respond _⟩
  | seta1 | seta2 => exact ⟨_, _, rfl, rfl, .guard hs (.memWrite hs fun _ _ => .respond _)⟩
  | latchaf => exact ⟨_, _, rfl, rfl, .rmw hs fun _ _ _ => .respond _⟩
  | sqwrate => exact ⟨_, _, rfl, rfl, .guard hs (.rmw hs fun _ _ _ => .respond _)⟩
  | setrun a | set32k a =>
    refine ⟨_, _, rfl, rfl, ?_⟩
    cases boolArg a with
    | some => exact .rmw hs fun _ _ _ => .respond _
    | none => exact .respond _ hs
  | sqwmode a =>
    refine ⟨_, _, rfl, rfl, ?_⟩
    cases sqwModeOf a.toNat with
    | some => exact .rmw hs fun _ _ _ => .respond _
    | none => exact .respond _ hs
  | setdt =>
    exact ⟨_, _, rfl, rfl, .guard hs (.rmw hs fun _ _ _ hv => .memWrite hv fun _ _ => .respond _)⟩
  | forceconv a =>
    refine ⟨_, _, rfl, rfl, ?_⟩
    cases boolArg a with
    | none => exact .respond _ hs
    | some wait =>
      refine .rmw hs fun _ v n hv => ?_
      cases wait with
      | true => exact .of_mapBusy (.poll _ (hv.mapBusy _))
      | false => exact .respond _ hv

/-! ### A reset between two transactions (R382) -/

/-- A reset between the read and the write of a read-modify-write leaves the write unissued. -/
theorem rmw_reset_before_write {addr : Nat} {clr set : Byte} {s : State} {k : Byte → State → State}
    (hn : s.resetIn = some 1) (h0 : (s.answerAt 0).reply = .ack) :
    rmw addr clr set s k = (rmwRead addr s).blockReset := by
  rw [rmw, memRead_eq_afterReply addr 1 _ (by simp [hn]), State.readEvent, h0, afterReply,
    memWrite_reset _ _ _ (by simp [hn])]
  rfl

/-- A reset after an acknowledged read-modify-write comes when its two transactions are done. -/
theorem rmw_reset_after_write {addr : Nat} {clr set : Byte} {s : State} {k : Byte → State → State}
    (hn : s.resetIn = some 2) (h0 : (s.answerAt 0).reply = .ack) (h1 : (s.answerAt 1).reply = .ack) :
    rmw addr clr set s k = k (s.dataAt addr 0) (rmwDone addr clr set s) := by
  refine rmw_cases (P := fun t => t = k (s.dataAt addr 0) (rmwDone addr clr set s)) addr clr set s k ?resetRead
    ?nackRead ?silentRead ?resetWrite (fun _ _ => rfl) ?nackWrite ?silentWrite
  case resetRead | resetWrite => simp [rmwRead, hn]
  case nackRead | silentRead => simp [h0]
  case nackWrite | silentWrite => simp [h1]

/-- On a quiet chip the read of a read-modify-write leaves the device registers as they are. -/
theorem State.Quiet.rmwRead_dev {addr : Nat} {s : State} (hq : s.Quiet) : (rmwRead addr s).dev = s.dev :=
  hq.issued_dev _ _

/-- SETDT with a reset between its two writes: OSF is clear and the time is not written (R188, R382). -/
theorem exec_setdt_reset {y : Year} {mo d h mi sec : Byte} {s : State} (hn : s.resetIn = some 2)
    (hok : Reading.dtOk y.toNat mo.toNat d.toNat h.toNat mi.toNat sec.toNat)
    (h0 : (s.answerAt 0).reply = .ack) (h1 : (s.answerAt 1).reply = .ack) :
    exec (.setdt y mo d h mi sec) s = .next (rmwDone 0x0F maskOSF 0x00#8 s.begin).blockReset := by
  rw [exec, execSetdt, if_pos (dtArgsOk_of_dtOk hok), rmw_reset_after_write (s := s.begin) hn h0 h1,
    memWrite_reset _ _ _ (by simp [rmwDone, rmwRead, hn])]

/-- A run in which a reset is due is nothing but the reset. -/
theorem Runs.eq_blockReset {i : Instr} {l : List Transaction} {s t : State} (h : Runs i l s t)
    (hn : s.resetIn = some 0) : t = s.blockReset := by
  induction h with
  | reset => rfl
  | respond => simp [Machine.respond, State.resetDue, hn]
  | mapBusy f _ ih => exact ih hn
  | ack _ h0 | nack _ h0 | silent _ h0 => exact absurd hn h0

/-- An operation in which a reset is due is nothing but the reset. -/
theorem exec_resetDue (i : Instr) {s : State} (hn : s.resetIn = some 0) : exec i s = .next s.blockReset := by
  obtain ⟨t, ht, hrun⟩ := exec_runs i s
  rw [ht, hrun.eq_blockReset (by simpa using hn)]
  rfl

/-- A step in which a reset is due is nothing but the reset (R380). -/
theorem step_resetDue {s : State} (hn : s.resetIn = some 0) : step s = .next s.blockReset.tick := by
  simp [step, State.resetDue, hn]

/-- A reset right after a frame is accepted leaves nothing of it, whatever the frame. -/
theorem step_reset_after_accept {s : State} {frame : List Byte} {rest : List (List Byte)} (hq : s.seq = .idle)
    (hn : s.resetIn = some 1) (hh : s.host = frame :: rest) :
    step s = .next (s.accept frame rest).blockReset := by
  have hlater : s.resetIn ≠ some 0 := by simp [hn]
  have hdue : (s.accept frame rest).resetIn = some 0 := by simp [hn]
  cases hd : decode frame with
  | ok i => rw [step_runs hq hlater hh hd, exec_resetDue i hdue]
  | error e =>
    rw [step_illegal hq hlater hh hd, illegalCommand, raise, respond, if_pos (by simpa using hdue)]
    rfl

/-- Settles O59: an operation with a reset ahead is beside itself with none; the resets between two transactions, in a step
and after an acceptance are where the count says. -/
theorem resetAbandonsTheOperation : Obligations.ResetAbandonsTheOperation := by
  unfold Obligations.ResetAbandonsTheOperation
  refine ⟨?everyOperation, ?setters, ?setdt, ?due, ?accepted⟩
  case everyOperation =>
    intro i s t u n hn ht hu
    obtain ⟨u', t', hu', ht', issued, hevents, habandoned, hover⟩ :=
      exec_timed i n (s := { s with resetIn := none }) rfl
    have hs : State.resetAfter n { s with resetIn := none } = s := by rw [State.resetAfter, ← hn]
    rw [hs] at ht'
    cases hu'.symm.trans hu
    cases ht'.symm.trans ht
    simp only [← lt_actions_iff, Nat.not_lt]
    refine ⟨issued, hevents, fun hlt => ?_, hover⟩
    obtain ⟨hseq, hresponse, hcommand, hreset, hhost, hbefore, hdev⟩ :=
      (habandoned hlt).congr (s' := s) rfl rfl rfl rfl rfl
    exact ⟨hseq, hresponse, hcommand, hreset, hhost, hbefore, hdev⟩
  case setters =>
    intro i s addr mask hn hw ho h0
    obtain ⟨clr, set, k, hexec, -, -⟩ := exec_ownsBits hw ho s
    rw [rmw_reset_before_write (s := s.begin) hn h0] at hexec
    exact ⟨_, hexec, rfl, rfl, rfl, by simp [rmwRead_events],
      fun hq => (hq.mono rfl fun _ => id : s.begin.Quiet).rmwRead_dev⟩
  case setdt =>
    intro y mo d h mi sec s hn hok h0 h1
    refine ⟨_, exec_setdt_reset hn hok h0 h1, rfl, rfl, rfl, by simp [rmwDone_events, rmwByte_maskOSF],
      fun hq hwf => ?_⟩
    have hstill : s.begin.StillFor (0 + 2) := hq.stillFor 2
    rw [State.blockReset_dev, hstill.rmwDone_dev, rmwByte_maskOSF, dataAt_begin, State.begin_dev]
    refine ⟨?_, fun a ha => Memory.read?_writeBytes_outside _ _ _ _ ?_⟩
    · simp [Memory.read?_writeBytes hwf]
    · rw [List.length_singleton]; omega
  case due => exact fun s hn => ⟨step_resetDue hn, State.Quiet.tick_dev⟩
  case accepted =>
    exact fun s frame rest hq hn hh => ⟨_, step_reset_after_accept hq hn hh, rfl, rfl, rfl, rfl, rfl, rfl, rfl⟩

end Sys2Proof.Machine
end

section
/-! PROOFS. The statements outside one family: the encoders of a date and SETDT (42_datetime.md), the modes of SQWMODE
(45_control_status.md), and the bounds of every operation (60_exceptions.md). The weekday formula's year begins in March,
so the leap day is its own last day (`leapDays_succ`); SETDT's time write starts where its read-modify-write is done
(`Completes.of_memWrite_ack`); and no operation but a decoder comes to rest with CORRUPT_DATA (`exec_rests_unspoiled`). -/

namespace Sys2Proof

/-- The year's bytes in a frame (30_encoding.md R102). -/
theorem ofNat_mod_eq_ylo (y : Year) : BitVec.ofNat 8 (y.toNat % 256) = ylo y :=
  BitVec.eq_of_toNat_eq (by simp [ylo_toNat])

@[inherit_doc ofNat_mod_eq_ylo] theorem ofNat_div_eq_yhi (y : Year) : BitVec.ofNat 8 (y.toNat / 256) = yhi y := by
  have := y.isLt
  exact BitVec.eq_of_toNat_eq (by rw [yhi_toNat, BitVec.toNat_ofNat, Nat.mod_eq_of_lt (by omega)])

end Sys2Proof

namespace Sys2Proof.Machine

/-! ### The weekday (R180) -/

/-- From March on the leap days counted are those of the year itself. -/
theorem dayOfWeek_from_march {m : Nat} (h : 3 ≤ m) (y d : Nat) :
    dayOfWeek y m d = (y + y / 4 - y / 100 + y / 400 + monthOffset m + d) % 7 := by
  rw [dayOfWeek, if_neg (Nat.not_lt.2 h)]

/-- In January and February they are those of the year before. -/
theorem dayOfWeek_before_march {m : Nat} (h : m < 3) (y d : Nat) :
    dayOfWeek y m d =
      (y - 1 + (y - 1) / 4 - (y - 1) / 100 + (y - 1) / 400 + monthOffset m + d) % 7 := by
  rw [dayOfWeek, if_pos h]

/-- A year adds one leap day to the count exactly when it is a leap year. -/
theorem leapDays_succ (n : Nat) :
    n + 1 + (n + 1) / 4 - (n + 1) / 100 + (n + 1) / 400 =
      n + n / 4 - n / 100 + n / 400 + 1 + if Reading.leap (n + 1) then 1 else 0 := by
  have hleap : Reading.leap (n + 1) = true ↔ 4 ∣ n + 1 ∧ (¬100 ∣ n + 1 ∨ 400 ∣ n + 1) := by
    simp [Reading.leap, Nat.dvd_iff_mod_eq_zero]
  have h100 : 100 ∣ n + 1 → 4 ∣ n + 1 := Nat.dvd_trans (by decide)
  have h400 : 400 ∣ n + 1 → 100 ∣ n + 1 := Nat.dvd_trans (by decide)
  have hcenturies : n / 100 ≤ n := Nat.div_le_self n 100
  simp only [Nat.succ_div, hleap]
  by_cases d400 : 400 ∣ n + 1
  · have d100 := h400 d400
    simp only [d400, d100, h100 d100, if_true, or_true, and_true]; omega
  by_cases d100 : 100 ∣ n + 1
  · simp only [d400, d100, h100 d100, if_true, if_false, not_true, or_false, and_false]; omega
  by_cases d4 : 4 ∣ n + 1
  · simp only [d400, d100, d4, if_true, if_false, not_false_iff, or_false, and_true]; omega
  · simp only [d400, d100, d4, if_false, false_and]; omega

theorem dayOfWeek_next_day (y m d : Nat) : dayOfWeek y m (d + 1) = (dayOfWeek y m d + 1) % 7 := by
  simp only [dayOfWeek]; omega

/-- February hands on to March with its leap day; the other months have the same length in every year. -/
theorem dayOfWeek_next_month {y m : Nat} (hy : 1 ≤ y) (h1 : 1 ≤ m) (h11 : m ≤ 11) :
    dayOfWeek y (m + 1) 1 = (dayOfWeek y m 1 + Reading.daysIn y m) % 7 := by
  obtain rfl | rfl | h3 : m = 1 ∨ m = 2 ∨ 3 ≤ m := by omega
  · have hlength : Reading.daysIn y 1 = 31 := rfl
    rw [dayOfWeek_before_march (by decide), dayOfWeek_before_march (by decide), hlength]
    simp only [monthOffset]; omega
  · obtain ⟨n, rfl⟩ := Nat.exists_eq_add_of_le' hy
    have hlength : Reading.daysIn (n + 1) 2 = 28 + if Reading.leap (n + 1) then 1 else 0 := by
      rw [Reading.daysIn, if_pos rfl]; split <;> rfl
    rw [dayOfWeek_from_march le_rfl, dayOfWeek_before_march (by decide), leapDays_succ, hlength]
    simp only [monthOffset, Nat.add_sub_cancel]; omega
  · rw [dayOfWeek_from_march (by omega), dayOfWeek_from_march h3]
    have hoffset : (monthOffset (m + 1) + 1) % 7 = (monthOffset m + 1 + Reading.daysIn y m) % 7 := by
      interval_cases m <;> simp [monthOffset, Reading.daysIn]
    omega

theorem dayOfWeek_next_year (y : Nat) : dayOfWeek (y + 1) 1 1 = (dayOfWeek y 12 1 + 31) % 7 := by
  rw [dayOfWeek_before_march (by decide), dayOfWeek_from_march (by decide), Nat.add_sub_cancel]
  simp only [monthOffset]; omega

/-- Settles O14: the formula's days follow each other as those of the Gregorian calendar do. -/
theorem weekdayFollowsTheCalendar : Obligations.WeekdayFollowsTheCalendar :=
  ⟨rfl, dayOfWeek_next_day, fun _ _ hy => dayOfWeek_next_month (by omega), fun y _ => dayOfWeek_next_year y⟩

/-! ### DOW and DTENC (R182, R184) -/

/-- The check of a date (R181). -/
theorem dateArgsOk_dateOk (y mo d : Nat) : dateArgsOk y mo d = decide (Reading.dateOk y mo d) := rfl

/-- The check of a date-time (R181). -/
theorem dtArgsOk_dtOf (y : Year) (mo d h mi s : Byte) : dtArgsOk (dtOf y mo d h mi s) =
    decide (Reading.dtOk y.toNat mo.toNat d.toNat h.toNat mi.toNat s.toNat) := (Bool.decide_and _ _).symm

/-- A weekday is its own byte. -/
theorem toByte_dayOfWeek {m : Nat} (h1 : 1 ≤ m) (h12 : m ≤ 12) (y d : Nat) :
    (toByte (dayOfWeek y m d)).toNat = Reading.weekday y m d := by
  have hlt : dayOfWeek y m d < 7 := Nat.mod_lt _ (by decide)
  rw [toByte_toNat_of_lt (by omega), dayOfWeek_eq_weekday h1 h12]

/-- Settles O13: in range DOW finishes with the weekday. -/
theorem dowGivesTheWeekday : Obligations.DowGivesTheWeekday := by
  intro y mo d s hn
  rw [ofNat_mod_eq_ylo, ofNat_div_eq_yhi]
  refine ⟨decode_encode (.dow y mo d), exec_guard hn rfl (dateArgsOk_dateOk ..) fun hok hend => ?_⟩
  obtain ⟨-, -, hm1, hm12, -, -⟩ := hok
  exact .of_finish hn hend (congrArg ([·]) (toByte_dayOfWeek hm1 hm12 _ _))

/-- Settles O15: in range DTENC finishes with the bytes of `dt_enc`. -/
theorem dtencGivesTheRegisterBytes : Obligations.DtencGivesTheRegisterBytes := by
  intro y mo d h mi sec s hn
  rw [ofNat_mod_eq_ylo, ofNat_div_eq_yhi]
  exact ⟨decode_encode (.dtenc y mo d h mi sec),
    exec_guard hn rfl (dtArgsOk_dtOf ..) fun hok hend => .of_finish hn hend (dtEnc_toNat hok)⟩

/-! ### SETDT (R188) -/

section

variable {i : Instr} {s u : State} {addr : Nat} {v : List Byte} {issued : List Event}

/-- An operation that stands at its last transaction, a write, finishes when it is acknowledged. -/
theorem Completes.of_memWrite_ack (h : exec i s = .next (memWrite addr v u fun s => finish [] s))
    (he : u.events = s.events ++ issued) (hu : Kept s u) (ha : (u.answerAt 0).reply = .ack) :
    Completes i s .ok [] (issued ++ [.write addr v .ack]) :=
  .of_respond (h.trans (congrArg _ (memWrite_ack addr v _ hu.resetIn ha))) (by simp [he])
    ⟨hu.command, hu.host, hu.transport, hu.convPollMax, by simp [hu.resetIn]⟩

/-- It ends with BUS_ERROR when the write is not acknowledged (R343). -/
theorem Completes.of_memWrite_nack (h : exec i s = .next (memWrite addr v u fun s => finish [] s))
    (he : u.events = s.events ++ issued) (hu : Kept s u) (ha : (u.answerAt 0).reply = .nack) :
    Completes i s .busError [] (issued ++ [.write addr v .nack]) :=
  .of_respond (h.trans (congrArg _ (memWrite_nack addr v _ hu.resetIn ha))) (by simp [he])
    ⟨hu.command, hu.host, hu.transport, hu.convPollMax, by simp [hu.resetIn]⟩

end

/-- Settles O18: in range SETDT is a read-modify-write that clears OSF, and then one write of the bytes of `dt_enc`. -/
theorem setdtClearsOsfThenWritesTheTime : Obligations.SetdtClearsOsfThenWritesTheTime := by
  intro y mo d h mi sec s hn
  rw [ofNat_mod_eq_ylo, ofNat_div_eq_yhi]
  refine ⟨decode_encode (.setdt y mo d h mi sec),
    (exec_guard hn rfl (dtArgsOk_dtOf ..) fun hok hexec => ?_).symm⟩
  have hclear := rmwByte_maskOSF (s.dataAt 0x0F 0)
  have hevents : (rmwDone 0x0F maskOSF 0x00#8 s.begin).events = s.events ++
      [.read 0x0F 1 .ack [s.dataAt 0x0F 0], .write 0x0F [s.dataAt 0x0F 0 &&& 0x7F#8] .ack] := by
    simp [rmwDone_events, hclear]
  have hanswer : (rmwDone 0x0F maskOSF 0x00#8 s.begin).answerAt 0 = s.answerAt 2 := rmwDone_answerAt 0
  refine ⟨.of_rmw_nackRead hn hexec, .of_rmw_nackWrite hn hexec hclear, dtEnc (dtOf y mo d h mi sec),
    dtEnc_toNat hok, fun h0 h1 h2 => ?_, fun h0 h1 h2 => ?_⟩
  all_goals have hwrite := exec_eq_of_rmw hn hexec h0 h1
  · exact .of_memWrite_nack (issued := [_, _]) hwrite hevents (rmwDone_kept hn) (by rwa [hanswer])
  · exact .of_memWrite_ack (issued := [_, _]) hwrite hevents (rmwDone_kept hn) (by rwa [hanswer])

/-! ### SQWMODE (R308, R309) -/

/-- The table of R309: the bits of the modes, by operand code. -/
theorem modeTable_getElem? (n : Nat) :
    [0x04#8, 0x40#8, 0x00#8, 0x05#8, 0x06#8, 0x07#8][n]? = (sqwModeOf n).map modeSet := by
  by_cases h : n ≤ 5
  · interval_cases n <;> rfl
  · rw [sqwModeOf_eq_none h, List.getElem?_eq_none (Nat.not_le.1 h)]
    rfl

/-- The byte SQWMODE stores (R308). -/
theorem rmwByte_modeClear (t set : Byte) : rmwByte t modeClear set = (t &&& 0xB8#8) ||| set := rfl

theorem exec_sqwmode {a : Byte} {m : SqwMode} (h : sqwModeOf a.toNat = some m) (s : State) :
    exec (.sqwmode a) s = .next (rmw 0x0E modeClear (modeSet m) s.begin fun _ s => finish [] s) := by
  rw [exec, execSqwmode, h]

/-- Settles O36: SQWMODE replaces the bits of the mode by those of the table. -/
theorem sqwmodeWritesTheModeBits : Obligations.SqwmodeWritesTheModeBits := by
  intro a s hn
  refine ⟨decode_encode (.sqwmode a), fun h => .of_raise hn ?_, fun w hw => ?_⟩
  · rw [exec, execSqwmode, sqwModeOf_eq_none (Nat.not_le.2 h)]
  · rw [modeTable_getElem?] at hw
    obtain ⟨m, hm, rfl⟩ := Option.map_eq_some_iff.1 hw
    exact .of_rmw hn (by decide) (exec_sqwmode hm s) (rmwByte_modeClear ..) fun _ => rfl

/-! ### CORRUPT_DATA (R346) -/

/-- The eight decoders of R346: BCDDEC, HRDEC, DTDEC, A1DEC, A2DEC, GETDT, GETA1 and GETA2. -/
abbrev IsDecoder (i : Instr) : Prop := i.opcode ∈ [0x02, 0x04, 0x07, 0x0A, 0x0C, 0x10, 0x13, 0x15]

/-- The response is not CORRUPT_DATA. -/
def Unspoiled (r : Response) (_ : List Event) : Prop := r.status ≠ .corruptData

namespace Rests

variable {s u t : State} {es : List Event}

theorem finish_unspoiled {results : List Byte} (h : Acked s es u) : Rests Unspoiled s (Machine.finish results u) :=
  .respond h nofun

theorem raise_unspoiled {st : Status} (h : Acked s es u) (hst : st ≠ .corruptData) :
    Rests Unspoiled s (raise st u) :=
  .respond h hst

/-- An argument check: what is done when it holds, or ARG_RANGE (R342). -/
theorem guard_unspoiled {ok : Bool} (h : Acked s es u) (ht : Rests Unspoiled s t) :
    Rests Unspoiled s (if ok then t else raise .argRange u) := by
  cases ok with
  | true => exact ht
  | false => exact raise_unspoiled h nofun

theorem poll_unspoiled (n : Nat) (h : Acked s es u) : Rests Unspoiled s (pollConv n u) := by
  induction n generalizing es u with
  | zero => exact raise_unspoiled h nofun
  | succ n ih =>
    refine .memRead h fun v hv => ?_
    have hcounted : Acked s _ v.countPoll := hv.mapBusy (by simp) fun _ => rfl
    split
    · exact ih hcounted
    · exact finish_unspoiled hcounted

end Rests

/-- While no reset is asserted no operation but a decoder ends with CORRUPT_DATA. -/
theorem exec_rests_unspoiled {i : Instr} (hi : ¬IsDecoder i) {s : State} (hn : s.resetIn = none) :
    ∃ t, exec i s = .next t ∧ Rests Unspoiled s.begin t := by
  have hstart := Acked.start hn
  cases i with
  | bcddec | hrdec | dtdec | a1dec | a2dec | getdt | geta1 | geta2 => simp [Instr.opcode] at hi
  | bcdenc | tmpdec => exact ⟨_, rfl, .finish_unspoiled hstart⟩
  | hrenc | dow | dtenc | a1enc | a2enc => exact ⟨_, rfl, .guard_unspoiled hstart (.finish_unspoiled hstart)⟩
  | gettmp | getvalid | getrun | getage => exact ⟨_, rfl, .memRead hstart fun _ h => .finish_unspoiled h⟩
  | setage => exact ⟨_, rfl, .memWrite hstart fun _ h => .finish_unspoiled h⟩
  | seta1 | seta2 =>
    exact ⟨_, rfl, .guard_unspoiled hstart (.memWrite hstart fun _ h => .finish_unspoiled h)⟩
  | latchaf => exact ⟨_, rfl, .rmw hstart fun _ _ h => .finish_unspoiled h⟩
  | sqwrate => exact ⟨_, rfl, .guard_unspoiled hstart (.rmw hstart fun _ _ h => .finish_unspoiled h)⟩
  | setdt =>
    exact ⟨_, rfl, .guard_unspoiled hstart
      (.rmw hstart fun _ _ h => .memWrite h fun _ h => .finish_unspoiled h)⟩
  | setrun | set32k | sqwmode =>
    refine ⟨_, rfl, ?_⟩
    split
    · exact .rmw hstart fun _ _ h => .finish_unspoiled h
    · exact .raise_unspoiled hstart nofun
  | forceconv =>
    refine ⟨_, rfl, ?_⟩
    split
    next wait _ =>
      refine .rmw hstart fun _ v h => ?_
      cases wait with
      | true => exact .poll_unspoiled _ (h.mapBusy (by simp) fun _ => rfl)
      | false => exact .finish_unspoiled h
    next => exact .raise_unspoiled hstart nofun

/-- Only a decoder ends with CORRUPT_DATA. -/
theorem isDecoder_of_corruptData {i : Instr} {s t : State} {r : Response} (hn : s.resetIn = none)
    (ht : exec i s = .next t) (hidle : t.seq = .idle) (hr : t.response = some r) (hst : r.status = .corruptData) :
    IsDecoder i := by
  by_contra hi
  obtain ⟨u, hu, hrests⟩ := exec_rests_unspoiled hi hn
  cases hu.symm.trans ht
  obtain ⟨_, -, ⟨-, hclean⟩ | ⟨rfl, -⟩⟩ := hrests.response hidle hr
  · exact hclean hst
  · cases hst

/-- Settles O47: a decoder that ends with CORRUPT_DATA delivers its results, and so has made its whole list. -/
theorem corruptDataDeliversEveryResult : Obligations.CorruptDataDeliversEveryResult := by
  unfold Obligations.CorruptDataDeliversEveryResult
  intro i s t r hn ht hidle hr hst
  have hdecoder := isDecoder_of_corruptData hn ht hidle hr hst
  have hi : i ≠ .forceconv 1 := by rintro rfl; simp [Instr.opcode] at hdecoder
  obtain ⟨-, hlength⟩ := responseCarriesExactlyItsResults i s t r hn ht hidle hr
  obtain ⟨issued, hevents, -, hwhole⟩ := transactionsFollowTheList i s t ht
  exact ⟨hdecoder, hlength.trans (if_pos (.inr hst)), issued, hevents,
    hwhole r hn hidle hr (Status.delivers_iff.2 (.inr hst)) hi⟩

/-! ### The bounds of every operation (R358), and the state after reset -/

/-- Settles O50: the transactions issued are the first of a list that keeps both bounds. -/
theorem transactionsAreBounded : Obligations.TransactionsAreBounded := by
  unfold Obligations.TransactionsAreBounded
  intro i s t hmax ht
  obtain ⟨issued, hevents, hfirst, -⟩ := transactionsFollowTheList i s t ht
  refine ⟨issued, hevents, ?_, fun e he => ?_⟩
  · calc issued.length = (issued.map Event.transaction).length := (List.length_map _).symm
      _ ≤ (transactionsOf s.convPollMax i).length := hfirst.length_le
      _ ≤ 2 + s.convPollMax := transactionsOf_length_le hmax i
  · exact transactionsOf_inMap _ i _ (hfirst.subset (List.mem_map_of_mem he))

/-- Settles O57: at reset every register is listed, and there is no event, no response and no operation. -/
theorem resetMeetsTheInvariant : Obligations.ResetMeetsTheInvariant where
  dev := reset_dev_wf
  events := nofun
  response := nofun
  busy := nofun
  convPollMax := Nat.le_add_left 1 _

end Sys2Proof.Machine
end
